-- ==== Sys2Proof/Word.lean ====
section
/-! DEFINITION. The two word types of the machine (00_scope.md R7, R10).
A register or a memory cell is a `Byte`; the program counter and every address is a `Word`.
Everything a test could show wrong (byte order, sign extension, bit fields) stands in Decode.lean and Machine/. -/

namespace Sys2Proof

/-- An 8-bit value (R7): A, X, Y, SP, P and every memory cell. -/
abbrev Byte := BitVec 8

/-- A 16-bit value (R7): PC and every address. -/
abbrev Word := BitVec 16

end Sys2Proof
end

