-- ==== Sys2Proof/Syntax.lean ====
section
/-! DEFINITION. The instructions: one constructor per row of spec/opcode_table.json (R119, R120), each with the operand bytes
that follow its opcode (R101). `Instr.op` and `Instr.operand` are the entry (instruction, addressing mode) of its slot. -/

namespace Sys2Proof

/-- The 56 mnemonics (R2). -/
inductive Op where
  | ADC | SBC | CMP | CPX | CPY | INC | DEC | INX
  | INY | DEX | DEY | AND | ORA | EOR | BIT | ASL
  | LSR | ROL | ROR | BCC | BCS | BEQ | BNE | BPL
  | BMI | BVC | BVS | JMP | JSR | RTS | RTI | PHA
  | PLA | PHP | PLP | BRK | NOP | LDA | LDX | LDY
  | STA | STX | STY | TAX | TAY | TXA | TYA | TSX
  | TXS | CLC | SEC | CLI | SEI | CLD | SED | CLV
deriving DecidableEq, Repr

/-- The 13 addressing modes (R103). -/
inductive Mode where
  | acc | imp | imm | zp | zpx | zpy | abs | absx | absy | ind | indx | indy | rel
deriving DecidableEq, Repr

/-- The encoded length of a mode in bytes (R103). -/
def Mode.length : Mode → Nat
  | .acc => 1
  | .imp => 1
  | .imm => 2
  | .zp => 2
  | .zpx => 2
  | .zpy => 2
  | .abs => 3
  | .absx => 3
  | .absy => 3
  | .ind => 3
  | .indx => 2
  | .indy => 2
  | .rel => 2

/-- The operand of a mode that reads and writes a memory cell (R107 to R112, R114, R115). -/
inductive MemOperand where
  /-- `base` (R107) -/
  | zp (base : Byte)
  /-- `base,X` (R108) -/
  | zpx (base : Byte)
  /-- `base,Y` (R109) -/
  | zpy (base : Byte)
  /-- `addr` (R110) -/
  | abs (addr : Word)
  /-- `base,X` (R111) -/
  | absx (base : Word)
  /-- `base,Y` (R112) -/
  | absy (base : Word)
  /-- `(ptr,X)` (R114) -/
  | indx (ptr : Byte)
  /-- `(ptr),Y` (R115) -/
  | indy (ptr : Byte)
deriving DecidableEq, Repr

/-- What a reading instruction takes its operand from: the immediate byte or a memory cell (R106, R117). -/
inductive Source where
  | imm (value : Byte)
  | mem (m : MemOperand)
deriving DecidableEq, Repr

/-- What a shift, rotate, INC or DEC reads and writes: the accumulator or a memory cell (R104, R117). -/
inductive Target where
  | acc
  | mem (m : MemOperand)
deriving DecidableEq, Repr

/-- An instruction's operand as its addressing mode gives it (R103). -/
inductive Operand where
  | imp
  | acc
  | imm (value : Byte)
  | mem (m : MemOperand)
  | ind (ptr : Word)
  | rel (offset : Byte)
deriving DecidableEq, Repr

/-- The mode of a memory operand. -/
def MemOperand.mode : MemOperand → Mode
  | .zp _ => .zp
  | .zpx _ => .zpx
  | .zpy _ => .zpy
  | .abs _ => .abs
  | .absx _ => .absx
  | .absy _ => .absy
  | .indx _ => .indx
  | .indy _ => .indy

/-- The mode of an operand (R103). -/
def Operand.mode : Operand → Mode
  | .imp => .imp
  | .acc => .acc
  | .imm _ => .imm
  | .mem m => m.mode
  | .ind _ => .ind
  | .rel _ => .rel

/-- A source as an operand. -/
def Source.operand : Source → Operand
  | .imm value => .imm value
  | .mem m => .mem m

/-- A target as an operand. -/
def Target.operand : Target → Operand
  | .acc => .acc
  | .mem m => .mem m

/-- The instructions, in the order of the spec's 4N files. -/
inductive Instr where
  -- ADC (R154)
  | adcImm (value : Byte)
  | adcZp (base : Byte)
  | adcZpX (base : Byte)
  | adcAbs (addr : Word)
  | adcAbsX (base : Word)
  | adcAbsY (base : Word)
  | adcIndX (ptr : Byte)
  | adcIndY (ptr : Byte)
  -- SBC (R155)
  | sbcImm (value : Byte)
  | sbcZp (base : Byte)
  | sbcZpX (base : Byte)
  | sbcAbs (addr : Word)
  | sbcAbsX (base : Word)
  | sbcAbsY (base : Word)
  | sbcIndX (ptr : Byte)
  | sbcIndY (ptr : Byte)
  -- CMP (R157)
  | cmpImm (value : Byte)
  | cmpZp (base : Byte)
  | cmpZpX (base : Byte)
  | cmpAbs (addr : Word)
  | cmpAbsX (base : Word)
  | cmpAbsY (base : Word)
  | cmpIndX (ptr : Byte)
  | cmpIndY (ptr : Byte)
  -- CPX (R158)
  | cpxImm (value : Byte)
  | cpxZp (base : Byte)
  | cpxAbs (addr : Word)
  -- CPY (R159)
  | cpyImm (value : Byte)
  | cpyZp (base : Byte)
  | cpyAbs (addr : Word)
  -- INC (R160)
  | incZp (base : Byte)
  | incZpX (base : Byte)
  | incAbs (addr : Word)
  | incAbsX (base : Word)
  -- DEC (R161)
  | decZp (base : Byte)
  | decZpX (base : Byte)
  | decAbs (addr : Word)
  | decAbsX (base : Word)
  -- INX (R162)
  | inx
  -- INY (R163)
  | iny
  -- DEX (R164)
  | dex
  -- DEY (R165)
  | dey
  -- AND (R190)
  | andImm (value : Byte)
  | andZp (base : Byte)
  | andZpX (base : Byte)
  | andAbs (addr : Word)
  | andAbsX (base : Word)
  | andAbsY (base : Word)
  | andIndX (ptr : Byte)
  | andIndY (ptr : Byte)
  -- ORA (R191)
  | oraImm (value : Byte)
  | oraZp (base : Byte)
  | oraZpX (base : Byte)
  | oraAbs (addr : Word)
  | oraAbsX (base : Word)
  | oraAbsY (base : Word)
  | oraIndX (ptr : Byte)
  | oraIndY (ptr : Byte)
  -- EOR (R192)
  | eorImm (value : Byte)
  | eorZp (base : Byte)
  | eorZpX (base : Byte)
  | eorAbs (addr : Word)
  | eorAbsX (base : Word)
  | eorAbsY (base : Word)
  | eorIndX (ptr : Byte)
  | eorIndY (ptr : Byte)
  -- BIT (R193)
  | bitZp (base : Byte)
  | bitAbs (addr : Word)
  -- ASL (R194)
  | aslAcc
  | aslZp (base : Byte)
  | aslZpX (base : Byte)
  | aslAbs (addr : Word)
  | aslAbsX (base : Word)
  -- LSR (R195)
  | lsrAcc
  | lsrZp (base : Byte)
  | lsrZpX (base : Byte)
  | lsrAbs (addr : Word)
  | lsrAbsX (base : Word)
  -- ROL (R196)
  | rolAcc
  | rolZp (base : Byte)
  | rolZpX (base : Byte)
  | rolAbs (addr : Word)
  | rolAbsX (base : Word)
  -- ROR (R197)
  | rorAcc
  | rorZp (base : Byte)
  | rorZpX (base : Byte)
  | rorAbs (addr : Word)
  | rorAbsX (base : Word)
  -- BCC (R221)
  | bcc (offset : Byte)
  -- BCS (R222)
  | bcs (offset : Byte)
  -- BEQ (R223)
  | beq (offset : Byte)
  -- BNE (R224)
  | bne (offset : Byte)
  -- BPL (R225)
  | bpl (offset : Byte)
  -- BMI (R226)
  | bmi (offset : Byte)
  -- BVC (R227)
  | bvc (offset : Byte)
  -- BVS (R228)
  | bvs (offset : Byte)
  -- JMP (R229)
  | jmpAbs (target : Word)
  | jmpInd (ptr : Word)
  -- JSR (R230)
  | jsr (target : Word)
  -- RTS (R231)
  | rts
  -- RTI (R232)
  | rti
  -- PHA (R250)
  | pha
  -- PLA (R251)
  | pla
  -- PHP (R252)
  | php
  -- PLP (R253)
  | plp
  -- BRK (R254)
  | brk
  -- NOP (R255)
  | nop
  -- LDA (R270)
  | ldaImm (value : Byte)
  | ldaZp (base : Byte)
  | ldaZpX (base : Byte)
  | ldaAbs (addr : Word)
  | ldaAbsX (base : Word)
  | ldaAbsY (base : Word)
  | ldaIndX (ptr : Byte)
  | ldaIndY (ptr : Byte)
  -- LDX (R271)
  | ldxImm (value : Byte)
  | ldxZp (base : Byte)
  | ldxZpY (base : Byte)
  | ldxAbs (addr : Word)
  | ldxAbsY (base : Word)
  -- LDY (R272)
  | ldyImm (value : Byte)
  | ldyZp (base : Byte)
  | ldyZpX (base : Byte)
  | ldyAbs (addr : Word)
  | ldyAbsX (base : Word)
  -- STA (R273)
  | staZp (base : Byte)
  | staZpX (base : Byte)
  | staAbs (addr : Word)
  | staAbsX (base : Word)
  | staAbsY (base : Word)
  | staIndX (ptr : Byte)
  | staIndY (ptr : Byte)
  -- STX (R274)
  | stxZp (base : Byte)
  | stxZpY (base : Byte)
  | stxAbs (addr : Word)
  -- STY (R275)
  | styZp (base : Byte)
  | styZpX (base : Byte)
  | styAbs (addr : Word)
  -- TAX (R276)
  | tax
  -- TAY (R277)
  | tay
  -- TXA (R278)
  | txa
  -- TYA (R279)
  | tya
  -- TSX (R280)
  | tsx
  -- TXS (R281)
  | txs
  -- CLC (R282)
  | clc
  -- SEC (R283)
  | sec
  -- CLI (R284)
  | cli
  -- SEI (R285)
  | sei
  -- CLD (R286)
  | cld
  -- SED (R287)
  | sed
  -- CLV (R288)
  | clv
deriving DecidableEq, Repr

/-- The instruction of an opcode's slot (R119). -/
def Instr.op : Instr → Op
  | .adcImm _ => .ADC
  | .adcZp _ => .ADC
  | .adcZpX _ => .ADC
  | .adcAbs _ => .ADC
  | .adcAbsX _ => .ADC
  | .adcAbsY _ => .ADC
  | .adcIndX _ => .ADC
  | .adcIndY _ => .ADC
  | .sbcImm _ => .SBC
  | .sbcZp _ => .SBC
  | .sbcZpX _ => .SBC
  | .sbcAbs _ => .SBC
  | .sbcAbsX _ => .SBC
  | .sbcAbsY _ => .SBC
  | .sbcIndX _ => .SBC
  | .sbcIndY _ => .SBC
  | .cmpImm _ => .CMP
  | .cmpZp _ => .CMP
  | .cmpZpX _ => .CMP
  | .cmpAbs _ => .CMP
  | .cmpAbsX _ => .CMP
  | .cmpAbsY _ => .CMP
  | .cmpIndX _ => .CMP
  | .cmpIndY _ => .CMP
  | .cpxImm _ => .CPX
  | .cpxZp _ => .CPX
  | .cpxAbs _ => .CPX
  | .cpyImm _ => .CPY
  | .cpyZp _ => .CPY
  | .cpyAbs _ => .CPY
  | .incZp _ => .INC
  | .incZpX _ => .INC
  | .incAbs _ => .INC
  | .incAbsX _ => .INC
  | .decZp _ => .DEC
  | .decZpX _ => .DEC
  | .decAbs _ => .DEC
  | .decAbsX _ => .DEC
  | .inx => .INX
  | .iny => .INY
  | .dex => .DEX
  | .dey => .DEY
  | .andImm _ => .AND
  | .andZp _ => .AND
  | .andZpX _ => .AND
  | .andAbs _ => .AND
  | .andAbsX _ => .AND
  | .andAbsY _ => .AND
  | .andIndX _ => .AND
  | .andIndY _ => .AND
  | .oraImm _ => .ORA
  | .oraZp _ => .ORA
  | .oraZpX _ => .ORA
  | .oraAbs _ => .ORA
  | .oraAbsX _ => .ORA
  | .oraAbsY _ => .ORA
  | .oraIndX _ => .ORA
  | .oraIndY _ => .ORA
  | .eorImm _ => .EOR
  | .eorZp _ => .EOR
  | .eorZpX _ => .EOR
  | .eorAbs _ => .EOR
  | .eorAbsX _ => .EOR
  | .eorAbsY _ => .EOR
  | .eorIndX _ => .EOR
  | .eorIndY _ => .EOR
  | .bitZp _ => .BIT
  | .bitAbs _ => .BIT
  | .aslAcc => .ASL
  | .aslZp _ => .ASL
  | .aslZpX _ => .ASL
  | .aslAbs _ => .ASL
  | .aslAbsX _ => .ASL
  | .lsrAcc => .LSR
  | .lsrZp _ => .LSR
  | .lsrZpX _ => .LSR
  | .lsrAbs _ => .LSR
  | .lsrAbsX _ => .LSR
  | .rolAcc => .ROL
  | .rolZp _ => .ROL
  | .rolZpX _ => .ROL
  | .rolAbs _ => .ROL
  | .rolAbsX _ => .ROL
  | .rorAcc => .ROR
  | .rorZp _ => .ROR
  | .rorZpX _ => .ROR
  | .rorAbs _ => .ROR
  | .rorAbsX _ => .ROR
  | .bcc _ => .BCC
  | .bcs _ => .BCS
  | .beq _ => .BEQ
  | .bne _ => .BNE
  | .bpl _ => .BPL
  | .bmi _ => .BMI
  | .bvc _ => .BVC
  | .bvs _ => .BVS
  | .jmpAbs _ => .JMP
  | .jmpInd _ => .JMP
  | .jsr _ => .JSR
  | .rts => .RTS
  | .rti => .RTI
  | .pha => .PHA
  | .pla => .PLA
  | .php => .PHP
  | .plp => .PLP
  | .brk => .BRK
  | .nop => .NOP
  | .ldaImm _ => .LDA
  | .ldaZp _ => .LDA
  | .ldaZpX _ => .LDA
  | .ldaAbs _ => .LDA
  | .ldaAbsX _ => .LDA
  | .ldaAbsY _ => .LDA
  | .ldaIndX _ => .LDA
  | .ldaIndY _ => .LDA
  | .ldxImm _ => .LDX
  | .ldxZp _ => .LDX
  | .ldxZpY _ => .LDX
  | .ldxAbs _ => .LDX
  | .ldxAbsY _ => .LDX
  | .ldyImm _ => .LDY
  | .ldyZp _ => .LDY
  | .ldyZpX _ => .LDY
  | .ldyAbs _ => .LDY
  | .ldyAbsX _ => .LDY
  | .staZp _ => .STA
  | .staZpX _ => .STA
  | .staAbs _ => .STA
  | .staAbsX _ => .STA
  | .staAbsY _ => .STA
  | .staIndX _ => .STA
  | .staIndY _ => .STA
  | .stxZp _ => .STX
  | .stxZpY _ => .STX
  | .stxAbs _ => .STX
  | .styZp _ => .STY
  | .styZpX _ => .STY
  | .styAbs _ => .STY
  | .tax => .TAX
  | .tay => .TAY
  | .txa => .TXA
  | .tya => .TYA
  | .tsx => .TSX
  | .txs => .TXS
  | .clc => .CLC
  | .sec => .SEC
  | .cli => .CLI
  | .sei => .SEI
  | .cld => .CLD
  | .sed => .SED
  | .clv => .CLV

/-- The operand of an instruction, in the addressing mode of its slot (R119). For JMP and JSR the operand of `abs` is the
target itself (R110, C8). -/
def Instr.operand : Instr → Operand
  | .adcImm b => .imm b
  | .adcZp b => .mem (.zp b)
  | .adcZpX b => .mem (.zpx b)
  | .adcAbs w => .mem (.abs w)
  | .adcAbsX w => .mem (.absx w)
  | .adcAbsY w => .mem (.absy w)
  | .adcIndX b => .mem (.indx b)
  | .adcIndY b => .mem (.indy b)
  | .sbcImm b => .imm b
  | .sbcZp b => .mem (.zp b)
  | .sbcZpX b => .mem (.zpx b)
  | .sbcAbs w => .mem (.abs w)
  | .sbcAbsX w => .mem (.absx w)
  | .sbcAbsY w => .mem (.absy w)
  | .sbcIndX b => .mem (.indx b)
  | .sbcIndY b => .mem (.indy b)
  | .cmpImm b => .imm b
  | .cmpZp b => .mem (.zp b)
  | .cmpZpX b => .mem (.zpx b)
  | .cmpAbs w => .mem (.abs w)
  | .cmpAbsX w => .mem (.absx w)
  | .cmpAbsY w => .mem (.absy w)
  | .cmpIndX b => .mem (.indx b)
  | .cmpIndY b => .mem (.indy b)
  | .cpxImm b => .imm b
  | .cpxZp b => .mem (.zp b)
  | .cpxAbs w => .mem (.abs w)
  | .cpyImm b => .imm b
  | .cpyZp b => .mem (.zp b)
  | .cpyAbs w => .mem (.abs w)
  | .incZp b => .mem (.zp b)
  | .incZpX b => .mem (.zpx b)
  | .incAbs w => .mem (.abs w)
  | .incAbsX w => .mem (.absx w)
  | .decZp b => .mem (.zp b)
  | .decZpX b => .mem (.zpx b)
  | .decAbs w => .mem (.abs w)
  | .decAbsX w => .mem (.absx w)
  | .inx => .imp
  | .iny => .imp
  | .dex => .imp
  | .dey => .imp
  | .andImm b => .imm b
  | .andZp b => .mem (.zp b)
  | .andZpX b => .mem (.zpx b)
  | .andAbs w => .mem (.abs w)
  | .andAbsX w => .mem (.absx w)
  | .andAbsY w => .mem (.absy w)
  | .andIndX b => .mem (.indx b)
  | .andIndY b => .mem (.indy b)
  | .oraImm b => .imm b
  | .oraZp b => .mem (.zp b)
  | .oraZpX b => .mem (.zpx b)
  | .oraAbs w => .mem (.abs w)
  | .oraAbsX w => .mem (.absx w)
  | .oraAbsY w => .mem (.absy w)
  | .oraIndX b => .mem (.indx b)
  | .oraIndY b => .mem (.indy b)
  | .eorImm b => .imm b
  | .eorZp b => .mem (.zp b)
  | .eorZpX b => .mem (.zpx b)
  | .eorAbs w => .mem (.abs w)
  | .eorAbsX w => .mem (.absx w)
  | .eorAbsY w => .mem (.absy w)
  | .eorIndX b => .mem (.indx b)
  | .eorIndY b => .mem (.indy b)
  | .bitZp b => .mem (.zp b)
  | .bitAbs w => .mem (.abs w)
  | .aslAcc => .acc
  | .aslZp b => .mem (.zp b)
  | .aslZpX b => .mem (.zpx b)
  | .aslAbs w => .mem (.abs w)
  | .aslAbsX w => .mem (.absx w)
  | .lsrAcc => .acc
  | .lsrZp b => .mem (.zp b)
  | .lsrZpX b => .mem (.zpx b)
  | .lsrAbs w => .mem (.abs w)
  | .lsrAbsX w => .mem (.absx w)
  | .rolAcc => .acc
  | .rolZp b => .mem (.zp b)
  | .rolZpX b => .mem (.zpx b)
  | .rolAbs w => .mem (.abs w)
  | .rolAbsX w => .mem (.absx w)
  | .rorAcc => .acc
  | .rorZp b => .mem (.zp b)
  | .rorZpX b => .mem (.zpx b)
  | .rorAbs w => .mem (.abs w)
  | .rorAbsX w => .mem (.absx w)
  | .bcc b => .rel b
  | .bcs b => .rel b
  | .beq b => .rel b
  | .bne b => .rel b
  | .bpl b => .rel b
  | .bmi b => .rel b
  | .bvc b => .rel b
  | .bvs b => .rel b
  | .jmpAbs w => .mem (.abs w)
  | .jmpInd w => .ind w
  | .jsr w => .mem (.abs w)
  | .rts => .imp
  | .rti => .imp
  | .pha => .imp
  | .pla => .imp
  | .php => .imp
  | .plp => .imp
  | .brk => .imp
  | .nop => .imp
  | .ldaImm b => .imm b
  | .ldaZp b => .mem (.zp b)
  | .ldaZpX b => .mem (.zpx b)
  | .ldaAbs w => .mem (.abs w)
  | .ldaAbsX w => .mem (.absx w)
  | .ldaAbsY w => .mem (.absy w)
  | .ldaIndX b => .mem (.indx b)
  | .ldaIndY b => .mem (.indy b)
  | .ldxImm b => .imm b
  | .ldxZp b => .mem (.zp b)
  | .ldxZpY b => .mem (.zpy b)
  | .ldxAbs w => .mem (.abs w)
  | .ldxAbsY w => .mem (.absy w)
  | .ldyImm b => .imm b
  | .ldyZp b => .mem (.zp b)
  | .ldyZpX b => .mem (.zpx b)
  | .ldyAbs w => .mem (.abs w)
  | .ldyAbsX w => .mem (.absx w)
  | .staZp b => .mem (.zp b)
  | .staZpX b => .mem (.zpx b)
  | .staAbs w => .mem (.abs w)
  | .staAbsX w => .mem (.absx w)
  | .staAbsY w => .mem (.absy w)
  | .staIndX b => .mem (.indx b)
  | .staIndY b => .mem (.indy b)
  | .stxZp b => .mem (.zp b)
  | .stxZpY b => .mem (.zpy b)
  | .stxAbs w => .mem (.abs w)
  | .styZp b => .mem (.zp b)
  | .styZpX b => .mem (.zpx b)
  | .styAbs w => .mem (.abs w)
  | .tax => .imp
  | .tay => .imp
  | .txa => .imp
  | .tya => .imp
  | .tsx => .imp
  | .txs => .imp
  | .clc => .imp
  | .sec => .imp
  | .cli => .imp
  | .sei => .imp
  | .cld => .imp
  | .sed => .imp
  | .clv => .imp

/-- The addressing mode of an instruction. -/
def Instr.mode (i : Instr) : Mode := i.operand.mode

/-- The length of an instruction in bytes: that of its mode (R100, R122). -/
def Instr.length (i : Instr) : Nat := i.mode.length

end Sys2Proof
end

