-- ==== Sys2Proof/Config.lean ====
section
/-! DEFINITION. The parameters of 00_scope.md R8 and the free values.
A `Config` is carried by the state and no step changes it (R45, log 1), so a statement about every state is a statement
about every configuration, as R8 asks. What the spec leaves OPEN without a default is a constant with no body at reset. -/

namespace Sys2Proof

/-- `UNDEF_POLICY` (R8, R311): what an undefined opcode does. -/
inductive UndefPolicy where
  /-- The scheduler halts at the undefined opcode (R312). -/
  | halt
  /-- Execution falls through with only an address advance (R313). -/
  | nop
deriving DecidableEq, Repr, Inhabited

/-- The throttle policy: "config variants of the same policy, not composed" (R362, R363). -/
inductive Throttle where
  /-- Throttling is disabled. -/
  | off
  /-- `THROTTLE_CAP`: at most `limit` executed instructions per render interval (R362). -/
  | cap (limit : Nat)
  /-- `TARGET_RATE`: a wall-clock rate, which has no effect in a model without time (R363). -/
  | rate (target : Nat)
deriving DecidableEq, Repr

/-- `BREAK_MODE` with `BREAK_ADDR` or `BREAK_COUNT` (R329, R330). -/
inductive BreakMode where
  /-- No breakpoint is evaluated ("optional", R330). -/
  | off
  /-- The backup PC equals a configured value. -/
  | byAddress (target : Word)
  /-- The monotonic counter equals a configured value. -/
  | byCount (target : Nat)
  /-- PC after the step equals PC before the step. -/
  | trapped
  /-- Interactive single-step: a pause after every executed step (R329). -/
  | singleStep
deriving DecidableEq, Repr

/-- The machine's parameters, with the names and types of R8. -/
structure Config where
  /-- `LOAD_ORIGIN`: where the binary is loaded, and the initial PC. -/
  loadOrigin : Word
  /-- `INIT_A` -/
  initA : Byte
  /-- `INIT_X` -/
  initX : Byte
  /-- `INIT_Y` -/
  initY : Byte
  /-- `INIT_SP` -/
  initSP : Byte
  /-- `INIT_P` -/
  initP : Byte
  /-- `UNDEF_POLICY` -/
  undefPolicy : UndefPolicy
  /-- `UNDEF_ADVANCE`, 1 to 3 (`Config.wellFormed`). -/
  undefAdvance : Nat
  /-- `ZP_PTR_WRAP` (R65) -/
  zpPtrWrap : Bool
  /-- `JMP_IND_PAGE_WRAP` (R113) -/
  jmpIndPageWrap : Bool
  /-- `ENTROPY_ADDR` (R75) -/
  entropyAddr : Word
  /-- `KEY_ADDR` (R74) -/
  keyAddr : Word
  /-- `SCREEN_BASE` (R73) -/
  screenBase : Word
  /-- `SCREEN_WIDTH` (R73) -/
  screenWidth : Word
  /-- `SCREEN_CELLS` (R73) -/
  screenCells : Word
  /-- `DETERMINISTIC` (R75) -/
  deterministic : Bool
  /-- `ENTROPY_FIXED` (R75) -/
  entropyFixed : Byte
  /-- `THROTTLE_CAP` or `TARGET_RATE` (R362, R363) -/
  throttle : Throttle
  /-- `RENDER_INTERVAL`: wall-clock time, no effect on state (D25). -/
  renderInterval : Nat
  /-- `START_DELAY`: wall-clock time, no effect on state (R317, D25). -/
  startDelay : Nat
  /-- `BREAK_MODE`, `BREAK_ADDR`, `BREAK_COUNT` (R330) -/
  breakMode : BreakMode
deriving DecidableEq, Repr

/-- FREE VALUE. The entropy byte of the step with a given draw index (R9, R75, D19): any byte, independently per step. -/
opaque Config.entropyDraw : Nat → Byte

/-- FREE VALUE. `UNDEF_POLICY` at reset: OPEN, no default (D7). -/
opaque Config.openUndefPolicy : UndefPolicy

/-- FREE VALUE. `ENTROPY_FIXED` at reset: OPEN, no default (D19). -/
opaque Config.openEntropyFixed : Byte

/-- FREE VALUE. `RENDER_INTERVAL` at reset: OPEN, no effect on state (D25). -/
opaque Config.openRenderInterval : Nat

/-- FREE VALUE. `START_DELAY` at reset: OPEN, no effect on state (D25). -/
opaque Config.openStartDelay : Nat

/-- The defaults of R8. What R8 leaves OPEN is a free value, but for the two host policies that only withhold steps, which
are off: DESIGN CHOICE, logs 16 and 17. -/
def Config.default : Config where
  loadOrigin := 0x0600
  initA := 0x00
  initX := 0x00
  initY := 0x00
  initSP := 0xFF
  initP := 0x00
  undefPolicy := Config.openUndefPolicy
  undefAdvance := 1
  zpPtrWrap := true
  jmpIndPageWrap := false
  entropyAddr := 0x00FE
  keyAddr := 0x00FF
  screenBase := 0x0200
  screenWidth := 32
  screenCells := 1024
  deterministic := false
  entropyFixed := Config.openEntropyFixed
  throttle := .off
  renderInterval := Config.openRenderInterval
  startDelay := Config.openStartDelay
  breakMode := .off

end Sys2Proof
end

