-- ==== Sys2Proof/WellFormed.lean ====
section
/-! DEFINITION. What is well formed: an instruction whose addressing mode its mnemonic takes (the "Encoding" lines of the 4N
files), and a configuration with which the process starts (R8, R350, R363). -/

namespace Sys2Proof

/-- The addressing modes a mnemonic takes, from its rule's "Encoding" line. -/
def Op.modes : Op → List Mode
  | .ADC => [.imm, .zp, .zpx, .abs, .absx, .absy, .indx, .indy]
  | .SBC => [.imm, .zp, .zpx, .abs, .absx, .absy, .indx, .indy]
  | .CMP => [.imm, .zp, .zpx, .abs, .absx, .absy, .indx, .indy]
  | .CPX => [.imm, .zp, .abs]
  | .CPY => [.imm, .zp, .abs]
  | .INC => [.zp, .zpx, .abs, .absx]
  | .DEC => [.zp, .zpx, .abs, .absx]
  | .INX => [.imp]
  | .INY => [.imp]
  | .DEX => [.imp]
  | .DEY => [.imp]
  | .AND => [.imm, .zp, .zpx, .abs, .absx, .absy, .indx, .indy]
  | .ORA => [.imm, .zp, .zpx, .abs, .absx, .absy, .indx, .indy]
  | .EOR => [.imm, .zp, .zpx, .abs, .absx, .absy, .indx, .indy]
  | .BIT => [.zp, .abs]
  | .ASL => [.acc, .zp, .zpx, .abs, .absx]
  | .LSR => [.acc, .zp, .zpx, .abs, .absx]
  | .ROL => [.acc, .zp, .zpx, .abs, .absx]
  | .ROR => [.acc, .zp, .zpx, .abs, .absx]
  | .BCC => [.rel]
  | .BCS => [.rel]
  | .BEQ => [.rel]
  | .BNE => [.rel]
  | .BPL => [.rel]
  | .BMI => [.rel]
  | .BVC => [.rel]
  | .BVS => [.rel]
  | .JMP => [.abs, .ind]
  | .JSR => [.abs]
  | .RTS => [.imp]
  | .RTI => [.imp]
  | .PHA => [.imp]
  | .PLA => [.imp]
  | .PHP => [.imp]
  | .PLP => [.imp]
  | .BRK => [.imp]
  | .NOP => [.imp]
  | .LDA => [.imm, .zp, .zpx, .abs, .absx, .absy, .indx, .indy]
  | .LDX => [.imm, .zp, .zpy, .abs, .absy]
  | .LDY => [.imm, .zp, .zpx, .abs, .absx]
  | .STA => [.zp, .zpx, .abs, .absx, .absy, .indx, .indy]
  | .STX => [.zp, .zpy, .abs]
  | .STY => [.zp, .zpx, .abs]
  | .TAX => [.imp]
  | .TAY => [.imp]
  | .TXA => [.imp]
  | .TYA => [.imp]
  | .TSX => [.imp]
  | .TXS => [.imp]
  | .CLC => [.imp]
  | .SEC => [.imp]
  | .CLI => [.imp]
  | .SEI => [.imp]
  | .CLD => [.imp]
  | .SED => [.imp]
  | .CLV => [.imp]

/-- Does the mnemonic take the mode? STA # is the spec's example of one that does not (R273). -/
def legalPair (o : Op) (m : Mode) : Bool := o.modes.contains m

/-- A well-formed instruction: every operand byte is legal (R37, R66), so the check is that of its slot. -/
def Instr.wellFormed (i : Instr) : Bool := legalPair i.op i.mode

/-- `UNDEF_ADVANCE` is 1, 2 or 3 (R8). -/
def Config.advanceOk (c : Config) : Bool := decide (1 ≤ c.undefAdvance) && decide (c.undefAdvance ≤ 3)

/-- A zero speed limit is "fatal at startup" (R363), for either throttle variant. -/
def Throttle.ok : Throttle → Bool
  | .off => true
  | .cap limit => decide (limit ≠ 0)
  | .rate target => decide (target ≠ 0)

/-- A configuration with which the process starts (R350 step 1). -/
def Config.wellFormed (c : Config) : Bool := c.advanceOk && c.throttle.ok

end Sys2Proof
end

