-- ==== Sys2Proof/Decode.lean ====
section
/-! DEFINITION. The decoder: a single lookup of the opcode byte in the opcode table of R120, then the operand bytes of the
slot's mode (R100, R101, R119, R122). After it the encoder, from the "Encoding" lines of the 4N files. Also the byte-order
helpers both use (R64). -/

namespace Sys2Proof

/-! ## Byte order (R10, R64) -/

/-- `lo(w)` (R10). -/
def loByte (w : Word) : Byte := w.setWidth 8

/-- `hi(w)` (R10). -/
def hiByte (w : Word) : Byte := (w >>> 8).setWidth 8

/-- The little-endian word: the low byte stands at the lower address (R64). -/
def wordOf (lo hi : Byte) : Word := (hi.setWidth 16 <<< 8) ||| lo.setWidth 16

/-! ## The opcode table (R119, R120) -/

/-- A slot of the opcode table: empty, or (instruction, addressing mode). -/
abbrev Slot := Option (Op × Mode)

/-- An undefined opcode, `--` in R120. -/
def gap : Slot := none

/-- A populated slot. -/
def slot (o : Op) (m : Mode) : Slot := some (o, m)

/-- R120, opcodes 00 to 0F. -/
def opRow0 : List Slot :=
  [slot .BRK .imp, slot .ORA .indx, gap, gap,
   gap, slot .ORA .zp, slot .ASL .zp, gap,
   slot .PHP .imp, slot .ORA .imm, slot .ASL .acc, gap,
   gap, slot .ORA .abs, slot .ASL .abs, gap]

/-- R120, opcodes 10 to 1F. -/
def opRow1 : List Slot :=
  [slot .BPL .rel, slot .ORA .indy, gap, gap,
   gap, slot .ORA .zpx, slot .ASL .zpx, gap,
   slot .CLC .imp, slot .ORA .absy, gap, gap,
   gap, slot .ORA .absx, slot .ASL .absx, gap]

/-- R120, opcodes 20 to 2F. -/
def opRow2 : List Slot :=
  [slot .JSR .abs, slot .AND .indx, gap, gap,
   slot .BIT .zp, slot .AND .zp, slot .ROL .zp, gap,
   slot .PLP .imp, slot .AND .imm, slot .ROL .acc, gap,
   slot .BIT .abs, slot .AND .abs, slot .ROL .abs, gap]

/-- R120, opcodes 30 to 3F. -/
def opRow3 : List Slot :=
  [slot .BMI .rel, slot .AND .indy, gap, gap,
   gap, slot .AND .zpx, slot .ROL .zpx, gap,
   slot .SEC .imp, slot .AND .absy, gap, gap,
   gap, slot .AND .absx, slot .ROL .absx, gap]

/-- R120, opcodes 40 to 4F. -/
def opRow4 : List Slot :=
  [slot .RTI .imp, slot .EOR .indx, gap, gap,
   gap, slot .EOR .zp, slot .LSR .zp, gap,
   slot .PHA .imp, slot .EOR .imm, slot .LSR .acc, gap,
   slot .JMP .abs, slot .EOR .abs, slot .LSR .abs, gap]

/-- R120, opcodes 50 to 5F. -/
def opRow5 : List Slot :=
  [slot .BVC .rel, slot .EOR .indy, gap, gap,
   gap, slot .EOR .zpx, slot .LSR .zpx, gap,
   slot .CLI .imp, slot .EOR .absy, gap, gap,
   gap, slot .EOR .absx, slot .LSR .absx, gap]

/-- R120, opcodes 60 to 6F. -/
def opRow6 : List Slot :=
  [slot .RTS .imp, slot .ADC .indx, gap, gap,
   gap, slot .ADC .zp, slot .ROR .zp, gap,
   slot .PLA .imp, slot .ADC .imm, slot .ROR .acc, gap,
   slot .JMP .ind, slot .ADC .abs, slot .ROR .abs, gap]

/-- R120, opcodes 70 to 7F. -/
def opRow7 : List Slot :=
  [slot .BVS .rel, slot .ADC .indy, gap, gap,
   gap, slot .ADC .zpx, slot .ROR .zpx, gap,
   slot .SEI .imp, slot .ADC .absy, gap, gap,
   gap, slot .ADC .absx, slot .ROR .absx, gap]

/-- R120, opcodes 80 to 8F. -/
def opRow8 : List Slot :=
  [gap, slot .STA .indx, gap, gap,
   slot .STY .zp, slot .STA .zp, slot .STX .zp, gap,
   slot .DEY .imp, gap, slot .TXA .imp, gap,
   slot .STY .abs, slot .STA .abs, slot .STX .abs, gap]

/-- R120, opcodes 90 to 9F. -/
def opRow9 : List Slot :=
  [slot .BCC .rel, slot .STA .indy, gap, gap,
   slot .STY .zpx, slot .STA .zpx, slot .STX .zpy, gap,
   slot .TYA .imp, slot .STA .absy, slot .TXS .imp, gap,
   gap, slot .STA .absx, gap, gap]

/-- R120, opcodes A0 to AF. -/
def opRowA : List Slot :=
  [slot .LDY .imm, slot .LDA .indx, slot .LDX .imm, gap,
   slot .LDY .zp, slot .LDA .zp, slot .LDX .zp, gap,
   slot .TAY .imp, slot .LDA .imm, slot .TAX .imp, gap,
   slot .LDY .abs, slot .LDA .abs, slot .LDX .abs, gap]

/-- R120, opcodes B0 to BF. -/
def opRowB : List Slot :=
  [slot .BCS .rel, slot .LDA .indy, gap, gap,
   slot .LDY .zpx, slot .LDA .zpx, slot .LDX .zpy, gap,
   slot .CLV .imp, slot .LDA .absy, slot .TSX .imp, gap,
   slot .LDY .absx, slot .LDA .absx, slot .LDX .absy, gap]

/-- R120, opcodes C0 to CF. -/
def opRowC : List Slot :=
  [slot .CPY .imm, slot .CMP .indx, gap, gap,
   slot .CPY .zp, slot .CMP .zp, slot .DEC .zp, gap,
   slot .INY .imp, slot .CMP .imm, slot .DEX .imp, gap,
   slot .CPY .abs, slot .CMP .abs, slot .DEC .abs, gap]

/-- R120, opcodes D0 to DF. -/
def opRowD : List Slot :=
  [slot .BNE .rel, slot .CMP .indy, gap, gap,
   gap, slot .CMP .zpx, slot .DEC .zpx, gap,
   slot .CLD .imp, slot .CMP .absy, gap, gap,
   gap, slot .CMP .absx, slot .DEC .absx, gap]

/-- R120, opcodes E0 to EF. -/
def opRowE : List Slot :=
  [slot .CPX .imm, slot .SBC .indx, gap, gap,
   slot .CPX .zp, slot .SBC .zp, slot .INC .zp, gap,
   slot .INX .imp, slot .SBC .imm, slot .NOP .imp, gap,
   slot .CPX .abs, slot .SBC .abs, slot .INC .abs, gap]

/-- R120, opcodes F0 to FF. -/
def opRowF : List Slot :=
  [slot .BEQ .rel, slot .SBC .indy, gap, gap,
   gap, slot .SBC .zpx, slot .INC .zpx, gap,
   slot .SED .imp, slot .SBC .absy, gap, gap,
   gap, slot .SBC .absx, slot .INC .absx, gap]

/-- The rows of R120, by the high hex digit of the opcode. -/
def opRows : List (List Slot) :=
  [opRow0, opRow1, opRow2, opRow3, opRow4, opRow5, opRow6, opRow7,
   opRow8, opRow9, opRowA, opRowB, opRowC, opRowD, opRowE, opRowF]

/-- Look an opcode byte up (R119): `none` is an undefined opcode (R121). -/
def opSlot (opcode : Byte) : Slot :=
  match opRows[opcode.toNat / 16]? with
  | some row =>
    match row[opcode.toNat % 16]? with
    | some entry => entry
    | none => none
  | none => none

/-- The instruction of a populated slot, with its operand bytes `b1` at PC+1 and `b2` at PC+2 (R101); `none` for a pair
that no slot holds. -/
def Instr.make (o : Op) (m : Mode) (b1 b2 : Byte) : Option Instr :=
  match o with
  | .ADC =>
    match m with
    | .imm => some (.adcImm b1)
    | .zp => some (.adcZp b1)
    | .zpx => some (.adcZpX b1)
    | .abs => some (.adcAbs (wordOf b1 b2))
    | .absx => some (.adcAbsX (wordOf b1 b2))
    | .absy => some (.adcAbsY (wordOf b1 b2))
    | .indx => some (.adcIndX b1)
    | .indy => some (.adcIndY b1)
    | _ => none
  | .SBC =>
    match m with
    | .imm => some (.sbcImm b1)
    | .zp => some (.sbcZp b1)
    | .zpx => some (.sbcZpX b1)
    | .abs => some (.sbcAbs (wordOf b1 b2))
    | .absx => some (.sbcAbsX (wordOf b1 b2))
    | .absy => some (.sbcAbsY (wordOf b1 b2))
    | .indx => some (.sbcIndX b1)
    | .indy => some (.sbcIndY b1)
    | _ => none
  | .CMP =>
    match m with
    | .imm => some (.cmpImm b1)
    | .zp => some (.cmpZp b1)
    | .zpx => some (.cmpZpX b1)
    | .abs => some (.cmpAbs (wordOf b1 b2))
    | .absx => some (.cmpAbsX (wordOf b1 b2))
    | .absy => some (.cmpAbsY (wordOf b1 b2))
    | .indx => some (.cmpIndX b1)
    | .indy => some (.cmpIndY b1)
    | _ => none
  | .CPX =>
    match m with
    | .imm => some (.cpxImm b1)
    | .zp => some (.cpxZp b1)
    | .abs => some (.cpxAbs (wordOf b1 b2))
    | _ => none
  | .CPY =>
    match m with
    | .imm => some (.cpyImm b1)
    | .zp => some (.cpyZp b1)
    | .abs => some (.cpyAbs (wordOf b1 b2))
    | _ => none
  | .INC =>
    match m with
    | .zp => some (.incZp b1)
    | .zpx => some (.incZpX b1)
    | .abs => some (.incAbs (wordOf b1 b2))
    | .absx => some (.incAbsX (wordOf b1 b2))
    | _ => none
  | .DEC =>
    match m with
    | .zp => some (.decZp b1)
    | .zpx => some (.decZpX b1)
    | .abs => some (.decAbs (wordOf b1 b2))
    | .absx => some (.decAbsX (wordOf b1 b2))
    | _ => none
  | .INX =>
    match m with
    | .imp => some .inx
    | _ => none
  | .INY =>
    match m with
    | .imp => some .iny
    | _ => none
  | .DEX =>
    match m with
    | .imp => some .dex
    | _ => none
  | .DEY =>
    match m with
    | .imp => some .dey
    | _ => none
  | .AND =>
    match m with
    | .imm => some (.andImm b1)
    | .zp => some (.andZp b1)
    | .zpx => some (.andZpX b1)
    | .abs => some (.andAbs (wordOf b1 b2))
    | .absx => some (.andAbsX (wordOf b1 b2))
    | .absy => some (.andAbsY (wordOf b1 b2))
    | .indx => some (.andIndX b1)
    | .indy => some (.andIndY b1)
    | _ => none
  | .ORA =>
    match m with
    | .imm => some (.oraImm b1)
    | .zp => some (.oraZp b1)
    | .zpx => some (.oraZpX b1)
    | .abs => some (.oraAbs (wordOf b1 b2))
    | .absx => some (.oraAbsX (wordOf b1 b2))
    | .absy => some (.oraAbsY (wordOf b1 b2))
    | .indx => some (.oraIndX b1)
    | .indy => some (.oraIndY b1)
    | _ => none
  | .EOR =>
    match m with
    | .imm => some (.eorImm b1)
    | .zp => some (.eorZp b1)
    | .zpx => some (.eorZpX b1)
    | .abs => some (.eorAbs (wordOf b1 b2))
    | .absx => some (.eorAbsX (wordOf b1 b2))
    | .absy => some (.eorAbsY (wordOf b1 b2))
    | .indx => some (.eorIndX b1)
    | .indy => some (.eorIndY b1)
    | _ => none
  | .BIT =>
    match m with
    | .zp => some (.bitZp b1)
    | .abs => some (.bitAbs (wordOf b1 b2))
    | _ => none
  | .ASL =>
    match m with
    | .acc => some .aslAcc
    | .zp => some (.aslZp b1)
    | .zpx => some (.aslZpX b1)
    | .abs => some (.aslAbs (wordOf b1 b2))
    | .absx => some (.aslAbsX (wordOf b1 b2))
    | _ => none
  | .LSR =>
    match m with
    | .acc => some .lsrAcc
    | .zp => some (.lsrZp b1)
    | .zpx => some (.lsrZpX b1)
    | .abs => some (.lsrAbs (wordOf b1 b2))
    | .absx => some (.lsrAbsX (wordOf b1 b2))
    | _ => none
  | .ROL =>
    match m with
    | .acc => some .rolAcc
    | .zp => some (.rolZp b1)
    | .zpx => some (.rolZpX b1)
    | .abs => some (.rolAbs (wordOf b1 b2))
    | .absx => some (.rolAbsX (wordOf b1 b2))
    | _ => none
  | .ROR =>
    match m with
    | .acc => some .rorAcc
    | .zp => some (.rorZp b1)
    | .zpx => some (.rorZpX b1)
    | .abs => some (.rorAbs (wordOf b1 b2))
    | .absx => some (.rorAbsX (wordOf b1 b2))
    | _ => none
  | .BCC =>
    match m with
    | .rel => some (.bcc b1)
    | _ => none
  | .BCS =>
    match m with
    | .rel => some (.bcs b1)
    | _ => none
  | .BEQ =>
    match m with
    | .rel => some (.beq b1)
    | _ => none
  | .BNE =>
    match m with
    | .rel => some (.bne b1)
    | _ => none
  | .BPL =>
    match m with
    | .rel => some (.bpl b1)
    | _ => none
  | .BMI =>
    match m with
    | .rel => some (.bmi b1)
    | _ => none
  | .BVC =>
    match m with
    | .rel => some (.bvc b1)
    | _ => none
  | .BVS =>
    match m with
    | .rel => some (.bvs b1)
    | _ => none
  | .JMP =>
    match m with
    | .abs => some (.jmpAbs (wordOf b1 b2))
    | .ind => some (.jmpInd (wordOf b1 b2))
    | _ => none
  | .JSR =>
    match m with
    | .abs => some (.jsr (wordOf b1 b2))
    | _ => none
  | .RTS =>
    match m with
    | .imp => some .rts
    | _ => none
  | .RTI =>
    match m with
    | .imp => some .rti
    | _ => none
  | .PHA =>
    match m with
    | .imp => some .pha
    | _ => none
  | .PLA =>
    match m with
    | .imp => some .pla
    | _ => none
  | .PHP =>
    match m with
    | .imp => some .php
    | _ => none
  | .PLP =>
    match m with
    | .imp => some .plp
    | _ => none
  | .BRK =>
    match m with
    | .imp => some .brk
    | _ => none
  | .NOP =>
    match m with
    | .imp => some .nop
    | _ => none
  | .LDA =>
    match m with
    | .imm => some (.ldaImm b1)
    | .zp => some (.ldaZp b1)
    | .zpx => some (.ldaZpX b1)
    | .abs => some (.ldaAbs (wordOf b1 b2))
    | .absx => some (.ldaAbsX (wordOf b1 b2))
    | .absy => some (.ldaAbsY (wordOf b1 b2))
    | .indx => some (.ldaIndX b1)
    | .indy => some (.ldaIndY b1)
    | _ => none
  | .LDX =>
    match m with
    | .imm => some (.ldxImm b1)
    | .zp => some (.ldxZp b1)
    | .zpy => some (.ldxZpY b1)
    | .abs => some (.ldxAbs (wordOf b1 b2))
    | .absy => some (.ldxAbsY (wordOf b1 b2))
    | _ => none
  | .LDY =>
    match m with
    | .imm => some (.ldyImm b1)
    | .zp => some (.ldyZp b1)
    | .zpx => some (.ldyZpX b1)
    | .abs => some (.ldyAbs (wordOf b1 b2))
    | .absx => some (.ldyAbsX (wordOf b1 b2))
    | _ => none
  | .STA =>
    match m with
    | .zp => some (.staZp b1)
    | .zpx => some (.staZpX b1)
    | .abs => some (.staAbs (wordOf b1 b2))
    | .absx => some (.staAbsX (wordOf b1 b2))
    | .absy => some (.staAbsY (wordOf b1 b2))
    | .indx => some (.staIndX b1)
    | .indy => some (.staIndY b1)
    | _ => none
  | .STX =>
    match m with
    | .zp => some (.stxZp b1)
    | .zpy => some (.stxZpY b1)
    | .abs => some (.stxAbs (wordOf b1 b2))
    | _ => none
  | .STY =>
    match m with
    | .zp => some (.styZp b1)
    | .zpx => some (.styZpX b1)
    | .abs => some (.styAbs (wordOf b1 b2))
    | _ => none
  | .TAX =>
    match m with
    | .imp => some .tax
    | _ => none
  | .TAY =>
    match m with
    | .imp => some .tay
    | _ => none
  | .TXA =>
    match m with
    | .imp => some .txa
    | _ => none
  | .TYA =>
    match m with
    | .imp => some .tya
    | _ => none
  | .TSX =>
    match m with
    | .imp => some .tsx
    | _ => none
  | .TXS =>
    match m with
    | .imp => some .txs
    | _ => none
  | .CLC =>
    match m with
    | .imp => some .clc
    | _ => none
  | .SEC =>
    match m with
    | .imp => some .sec
    | _ => none
  | .CLI =>
    match m with
    | .imp => some .cli
    | _ => none
  | .SEI =>
    match m with
    | .imp => some .sei
    | _ => none
  | .CLD =>
    match m with
    | .imp => some .cld
    | _ => none
  | .SED =>
    match m with
    | .imp => some .sed
    | _ => none
  | .CLV =>
    match m with
    | .imp => some .clv
    | _ => none

/-- Decode three fetched bytes: `none` is an undefined opcode (R122). -/
def decodeInstr (opcode b1 b2 : Byte) : Option Instr :=
  match opSlot opcode with
  | some (o, m) => Instr.make o m b1 b2
  | none => none

/-- What decoding a list of bytes gives: an instruction and the bytes after it, or a rejection by name. -/
inductive DecodeResult where
  | ok (i : Instr) (rest : List Byte)
  /-- The opcode's slot is empty (R121). -/
  | undefinedOpcode (opcode : Byte)
  /-- The list ends inside the instruction. -/
  | truncated (opcode : Byte)
  /-- There is no byte. -/
  | empty
deriving DecidableEq, Repr

/-- Decode the instruction at the head of a list of bytes. -/
def decode : List Byte → DecodeResult
  | [] => .empty
  | opcode :: tail =>
    match decodeInstr opcode (tail.getD 0 0) (tail.getD 1 0) with
    | some i => if i.length ≤ tail.length + 1 then .ok i (tail.drop (i.length - 1)) else .truncated opcode
    | none => .undefinedOpcode opcode

/-- Byte `k` of a word numbered as the opcode table numbers it: bit 0 is the least significant bit of the first byte. -/
def tableByte (nbits w k : Nat) : Byte := BitVec.ofNat 8 ((w % 2 ^ nbits) / 2 ^ (8 * k))

/-- The bytes of the longest instruction, the first at the lowest address; every bit above `nbits` is 0. -/
def tableBytes (nbits w : Nat) : List Byte := [tableByte nbits w 0, tableByte nbits w 1, tableByte nbits w 2]

/-- The instruction the decoder reads from a word of the opcode table. -/
def decodeTableWord (nbits w : Nat) : Option Instr :=
  match decode (tableBytes nbits w) with
  | .ok i _ => some i
  | .undefinedOpcode _ => none
  | .truncated _ => none
  | .empty => none

/-! ## The encoder -/

/-- The opcode byte of an instruction, from its rule's "Encoding" line. -/
def Instr.opcode : Instr → Byte
  -- ADC (R154)
  | .adcImm _ => 0x69
  | .adcZp _ => 0x65
  | .adcZpX _ => 0x75
  | .adcAbs _ => 0x6D
  | .adcAbsX _ => 0x7D
  | .adcAbsY _ => 0x79
  | .adcIndX _ => 0x61
  | .adcIndY _ => 0x71
  -- SBC (R155)
  | .sbcImm _ => 0xE9
  | .sbcZp _ => 0xE5
  | .sbcZpX _ => 0xF5
  | .sbcAbs _ => 0xED
  | .sbcAbsX _ => 0xFD
  | .sbcAbsY _ => 0xF9
  | .sbcIndX _ => 0xE1
  | .sbcIndY _ => 0xF1
  -- CMP (R157)
  | .cmpImm _ => 0xC9
  | .cmpZp _ => 0xC5
  | .cmpZpX _ => 0xD5
  | .cmpAbs _ => 0xCD
  | .cmpAbsX _ => 0xDD
  | .cmpAbsY _ => 0xD9
  | .cmpIndX _ => 0xC1
  | .cmpIndY _ => 0xD1
  -- CPX (R158)
  | .cpxImm _ => 0xE0
  | .cpxZp _ => 0xE4
  | .cpxAbs _ => 0xEC
  -- CPY (R159)
  | .cpyImm _ => 0xC0
  | .cpyZp _ => 0xC4
  | .cpyAbs _ => 0xCC
  -- INC (R160)
  | .incZp _ => 0xE6
  | .incZpX _ => 0xF6
  | .incAbs _ => 0xEE
  | .incAbsX _ => 0xFE
  -- DEC (R161)
  | .decZp _ => 0xC6
  | .decZpX _ => 0xD6
  | .decAbs _ => 0xCE
  | .decAbsX _ => 0xDE
  -- INX (R162)
  | .inx => 0xE8
  -- INY (R163)
  | .iny => 0xC8
  -- DEX (R164)
  | .dex => 0xCA
  -- DEY (R165)
  | .dey => 0x88
  -- AND (R190)
  | .andImm _ => 0x29
  | .andZp _ => 0x25
  | .andZpX _ => 0x35
  | .andAbs _ => 0x2D
  | .andAbsX _ => 0x3D
  | .andAbsY _ => 0x39
  | .andIndX _ => 0x21
  | .andIndY _ => 0x31
  -- ORA (R191)
  | .oraImm _ => 0x09
  | .oraZp _ => 0x05
  | .oraZpX _ => 0x15
  | .oraAbs _ => 0x0D
  | .oraAbsX _ => 0x1D
  | .oraAbsY _ => 0x19
  | .oraIndX _ => 0x01
  | .oraIndY _ => 0x11
  -- EOR (R192)
  | .eorImm _ => 0x49
  | .eorZp _ => 0x45
  | .eorZpX _ => 0x55
  | .eorAbs _ => 0x4D
  | .eorAbsX _ => 0x5D
  | .eorAbsY _ => 0x59
  | .eorIndX _ => 0x41
  | .eorIndY _ => 0x51
  -- BIT (R193)
  | .bitZp _ => 0x24
  | .bitAbs _ => 0x2C
  -- ASL (R194)
  | .aslAcc => 0x0A
  | .aslZp _ => 0x06
  | .aslZpX _ => 0x16
  | .aslAbs _ => 0x0E
  | .aslAbsX _ => 0x1E
  -- LSR (R195)
  | .lsrAcc => 0x4A
  | .lsrZp _ => 0x46
  | .lsrZpX _ => 0x56
  | .lsrAbs _ => 0x4E
  | .lsrAbsX _ => 0x5E
  -- ROL (R196)
  | .rolAcc => 0x2A
  | .rolZp _ => 0x26
  | .rolZpX _ => 0x36
  | .rolAbs _ => 0x2E
  | .rolAbsX _ => 0x3E
  -- ROR (R197)
  | .rorAcc => 0x6A
  | .rorZp _ => 0x66
  | .rorZpX _ => 0x76
  | .rorAbs _ => 0x6E
  | .rorAbsX _ => 0x7E
  -- BCC (R221)
  | .bcc _ => 0x90
  -- BCS (R222)
  | .bcs _ => 0xB0
  -- BEQ (R223)
  | .beq _ => 0xF0
  -- BNE (R224)
  | .bne _ => 0xD0
  -- BPL (R225)
  | .bpl _ => 0x10
  -- BMI (R226)
  | .bmi _ => 0x30
  -- BVC (R227)
  | .bvc _ => 0x50
  -- BVS (R228)
  | .bvs _ => 0x70
  -- JMP (R229)
  | .jmpAbs _ => 0x4C
  | .jmpInd _ => 0x6C
  -- JSR (R230)
  | .jsr _ => 0x20
  -- RTS (R231)
  | .rts => 0x60
  -- RTI (R232)
  | .rti => 0x40
  -- PHA (R250)
  | .pha => 0x48
  -- PLA (R251)
  | .pla => 0x68
  -- PHP (R252)
  | .php => 0x08
  -- PLP (R253)
  | .plp => 0x28
  -- BRK (R254)
  | .brk => 0x00
  -- NOP (R255)
  | .nop => 0xEA
  -- LDA (R270)
  | .ldaImm _ => 0xA9
  | .ldaZp _ => 0xA5
  | .ldaZpX _ => 0xB5
  | .ldaAbs _ => 0xAD
  | .ldaAbsX _ => 0xBD
  | .ldaAbsY _ => 0xB9
  | .ldaIndX _ => 0xA1
  | .ldaIndY _ => 0xB1
  -- LDX (R271)
  | .ldxImm _ => 0xA2
  | .ldxZp _ => 0xA6
  | .ldxZpY _ => 0xB6
  | .ldxAbs _ => 0xAE
  | .ldxAbsY _ => 0xBE
  -- LDY (R272)
  | .ldyImm _ => 0xA0
  | .ldyZp _ => 0xA4
  | .ldyZpX _ => 0xB4
  | .ldyAbs _ => 0xAC
  | .ldyAbsX _ => 0xBC
  -- STA (R273)
  | .staZp _ => 0x85
  | .staZpX _ => 0x95
  | .staAbs _ => 0x8D
  | .staAbsX _ => 0x9D
  | .staAbsY _ => 0x99
  | .staIndX _ => 0x81
  | .staIndY _ => 0x91
  -- STX (R274)
  | .stxZp _ => 0x86
  | .stxZpY _ => 0x96
  | .stxAbs _ => 0x8E
  -- STY (R275)
  | .styZp _ => 0x84
  | .styZpX _ => 0x94
  | .styAbs _ => 0x8C
  -- TAX (R276)
  | .tax => 0xAA
  -- TAY (R277)
  | .tay => 0xA8
  -- TXA (R278)
  | .txa => 0x8A
  -- TYA (R279)
  | .tya => 0x98
  -- TSX (R280)
  | .tsx => 0xBA
  -- TXS (R281)
  | .txs => 0x9A
  -- CLC (R282)
  | .clc => 0x18
  -- SEC (R283)
  | .sec => 0x38
  -- CLI (R284)
  | .cli => 0x58
  -- SEI (R285)
  | .sei => 0x78
  -- CLD (R286)
  | .cld => 0xD8
  -- SED (R287)
  | .sed => 0xF8
  -- CLV (R288)
  | .clv => 0xB8

/-- The operand bytes of a memory operand, low byte first (R101). -/
def MemOperand.bytes : MemOperand → List Byte
  | .zp b => [b]
  | .zpx b => [b]
  | .zpy b => [b]
  | .abs w => [loByte w, hiByte w]
  | .absx w => [loByte w, hiByte w]
  | .absy w => [loByte w, hiByte w]
  | .indx b => [b]
  | .indy b => [b]

/-- The operand bytes after the opcode (R101). -/
def Operand.bytes : Operand → List Byte
  | .imp => []
  | .acc => []
  | .imm b => [b]
  | .mem m => m.bytes
  | .ind w => [loByte w, hiByte w]
  | .rel b => [b]

/-- The bytes of an instruction. -/
def encode (i : Instr) : List Byte := i.opcode :: i.operand.bytes

end Sys2Proof
end

