-- ==== Sys2Proof/Machine/State.lean ====
section
/-! DEFINITION. The state of one simulator instance (10_state.md), as plain data, and the state after reset (R44, R352). -/

namespace Sys2Proof.Machine

/-- The scheduler's run state (R41, R316). -/
inductive RunState where
  | idle
  | running
  | halted
  | stopped
deriving DecidableEq, Repr

/-- What happens between two steps, or the tick at which the scheduler may run one (R316, R322, R364). -/
inductive HostEvent where
  /-- The scheduler's own move: the start delay elapses in idle, at most one step runs in running (R316, R317). -/
  | tick
  /-- The host writes a key's code into the keyboard cell (R74). -/
  | key (code : Byte)
  /-- A new render interval starts, and the per-interval count returns to 0 (R362). -/
  | intervalStart
  /-- The display reads the screen buffer (R73, R364). -/
  | render
  /-- A quit signal is observed (R318). -/
  | quit
  /-- The host resets the core (R354). -/
  | reset
  /-- The breakpoint command continue (R331). -/
  | resume
  /-- The breakpoint command resume-from-breakpoint (R331, log 16). -/
  | resumeFromBreakpoint
  /-- The breakpoint command coredump, "optionally with an address range" from a first to a last address (R331, R332). -/
  | coredump (range : Option (Word × Word))
deriving DecidableEq, Repr

/-- The bits of the status register (R28). -/
inductive Flag where
  /-- carry -/
  | C
  /-- zero -/
  | Z
  /-- interrupt-disable -/
  | I
  /-- decimal mode -/
  | D
  /-- break -/
  | B
  /-- unused -/
  | U
  /-- overflow -/
  | V
  /-- negative -/
  | N
deriving DecidableEq, Repr

/-- Memory as (address, byte) pairs, addresses strictly rising, no zero byte listed (`Memory.wf`). An unlisted cell reads
0x00, the reset contents (R61). -/
abbrev Memory := List Host.Cell

/-- The state of the machine. INVENTORY.md gives each field's rule and reset value. -/
@[ext]
structure State where
  /-- The accumulator (R21). -/
  a : Byte
  /-- Index register X (R22). -/
  x : Byte
  /-- Index register Y (R23). -/
  y : Byte
  /-- Stack pointer (R27). -/
  sp : Byte
  /-- Program counter (R25). -/
  pc : Word
  /-- Status register N V U B D I Z C (R28). -/
  p : Byte
  /-- The memory image less the entropy cell (R60, log 9). -/
  mem : Memory
  /-- The byte of the cell at `ENTROPY_ADDR` (R75, log 9). -/
  entropy : Byte
  /-- The sticky halted signal (R39). -/
  halted : Bool
  /-- The no-auto-advance signal of the step under way (R40, log 20). -/
  suppress : Bool
  /-- The scheduler's run state (R41). -/
  run : RunState
  /-- The monotonic instruction count (R42). -/
  count : Nat
  /-- The per-render-interval executed-instruction count (R42, R362). -/
  intervalCount : Nat
  /-- PC at the start of the last step (R43). -/
  backupPC : Word
  /-- A breakpoint pause is on (R331). -/
  paused : Bool
  /-- The machine's parameters (R8, R45, log 1). -/
  cfg : Config
  /-- The model's own: the index of the next entropy draw (R9, log 8). -/
  draws : Nat
  /-- The model's own: what the host does next, oldest first (R364, log 11). -/
  pending : List HostEvent
deriving DecidableEq, Repr

/-- The core has no exception, trap or fault (R310): no step and no instruction raises one, so there is no constructor. -/
inductive Fault : Type
deriving DecidableEq, Repr

/-- Why an instruction has no next state. No instruction of this model is refused. -/
inductive Refusal where
  /-- Raised by `exec`'s arm of an instruction without a meaning; no arm raises it. Safe: the model stops. -/
  | notModelled (mnemonic : String)
deriving DecidableEq, Repr

/-- A new instance with the given parameters and no program (R44, R350 steps 2, 4 and 5). `backupPC`, `paused`, `draws` and
`pending` hold DESIGN CHOICE values (logs 19, 16, 8, 11). -/
def State.initial (cfg : Config) : State where
  a := cfg.initA
  x := cfg.initX
  y := cfg.initY
  sp := cfg.initSP
  pc := cfg.loadOrigin
  p := cfg.initP
  mem := []
  entropy := 0x00
  halted := false
  suppress := false
  run := .idle
  count := 0
  intervalCount := 0
  backupPC := 0x0000
  paused := false
  cfg := cfg
  draws := 0
  pending := []

/-- The machine right after reset, with the parameters' defaults (R8, R44, R352). -/
def State.reset : State := State.initial Config.default

end Sys2Proof.Machine
end

