-- ==== Sys2Proof/Machine/Ops.lean ====
section
/-! DEFINITION. The named operations over memory, registers, the stack, the step outcome and the halted signal.
The core takes no exception (R310), so there is no exception entry: its two abnormal events are `State.halt` (BRK, R254)
and `State.undefinedOpcode` (R311 to R313). RTI, the only return (R323), is built from `State.pull`. -/

namespace Sys2Proof.Machine

/-- What an instruction answers. -/
abbrev Result := Host.Outcome State Fault Refusal

/-! ## Memory -/

/-- What a cell that nothing has written reads as: "zero-initialized" (R61). -/
def initialByte : Byte := 0x00

/-- The byte a memory list holds at an address. -/
def Memory.read : Memory → Nat → Byte
  | [], _ => initialByte
  | (k, v) :: rest, addr => if k = addr then v else Memory.read rest addr

/-- The list without any entry for an address. -/
def Memory.erase : Memory → Nat → Memory
  | [], _ => []
  | (k, v) :: rest, addr => if k = addr then Memory.erase rest addr else (k, v) :: Memory.erase rest addr

/-- Put an entry before the first larger address. -/
def Memory.insert : Memory → Nat → Byte → Memory
  | [], addr, v => [(addr, v)]
  | (k, w) :: rest, addr, v => if addr < k then (addr, v) :: (k, w) :: rest else (k, w) :: Memory.insert rest addr v

/-- Write one byte, keeping the canonical form: a byte equal to `initialByte` is not listed. -/
def Memory.write (m : Memory) (addr : Nat) (v : Byte) : Memory :=
  if v = initialByte then m.erase addr else (m.erase addr).insert addr v

/-- The canonical form: addresses strictly rising, each in the address space (R60), no entry equal to what an unlisted
address reads as. -/
def Memory.wf (m : Memory) : Bool :=
  decide (m.Pairwise fun c d => c.1 < d.1) && m.all fun c => decide (c.1 < 65536) && !decide (c.2 = initialByte)

/-- `MemRead(a, 1)` (R62). The cell at `ENTROPY_ADDR` has its own home (log 9). -/
def State.readByte (s : State) (addr : Word) : Byte :=
  if addr = s.cfg.entropyAddr then s.entropy else s.mem.read addr.toNat

/-- `MemWrite(a, 1, v)` (R63). -/
def State.writeByte (s : State) (addr : Word) (v : Byte) : State :=
  { s with
    mem := if addr = s.cfg.entropyAddr then s.mem else s.mem.write addr.toNat v
    entropy := if addr = s.cfg.entropyAddr then v else s.entropy }

/-- `MemRead16(a)`: little-endian, the second address wraps modulo 65536 (R64). -/
def State.readWord (s : State) (addr : Word) : Word := wordOf (s.readByte addr) (s.readByte (addr + 1))

/-- `zext_16` (R10). -/
def zext16 (b : Byte) : Word := b.setWidth 16

/-- `sext_16` (R10): `b` below 0x80, else `b + 0xFF00`. -/
def sext16 (b : Byte) : Word := if b.toNat < 0x80 then zext16 b else zext16 b + 0xFF00

/-- `ZPRead16(p)` (R65): where the second byte is read depends on `ZP_PTR_WRAP`. -/
def State.readZpWord (s : State) (ptr : Byte) : Word :=
  wordOf (s.readByte (zext16 ptr)) (s.readByte (if s.cfg.zpPtrWrap then zext16 (ptr + 1) else zext16 ptr + 1))

/-! ## Registers and signals: one home each -/

def State.setA (s : State) (v : Byte) : State := { s with a := v }
def State.setX (s : State) (v : Byte) : State := { s with x := v }
def State.setY (s : State) (v : Byte) : State := { s with y := v }
def State.setSp (s : State) (v : Byte) : State := { s with sp := v }
def State.setP (s : State) (v : Byte) : State := { s with p := v }

/-- The outcome `Advance` (R124): the no-auto-advance signal is not raised, and the scheduler will add the length. -/
def State.advance (s : State) : State := { s with suppress := false }

/-- The outcome `Jump(t)` (R124): PC holds the target and the no-auto-advance signal is raised (R40). -/
def State.jump (s : State) (target : Word) : State := { s with pc := target, suppress := true }

/-- `halt()` (R39). -/
def State.halt (s : State) : State := { s with halted := true }

/-! ## The stack -/

/-- The address SP designates: `0x0100 + SP` (R27). -/
def stackAddr (sp : Byte) : Word := 0x0100 + zext16 sp

/-- `Push(v)` (R70): write, then decrement (C1). -/
def State.push (s : State) (v : Byte) : State := (s.writeByte (stackAddr s.sp) v).setSp (s.sp - 1)

/-- The byte `Pull()` returns (R71): the one above SP. -/
def State.pullByte (s : State) : Byte := s.readByte (stackAddr (s.sp + 1))

/-- The state after `Pull()` (R71): SP incremented. -/
def State.pulled (s : State) : State := s.setSp (s.sp + 1)

/-! ## The end of a step -/

/-- The byte the scheduler writes into the entropy cell after a step: `ENTROPY_FIXED` or the step's draw (R75). -/
def State.entropyByte (s : State) : Byte :=
  if s.cfg.deterministic then s.cfg.entropyFixed else Config.entropyDraw s.draws

/-- The scheduler's entropy write; the next step has the next draw (R75, R123). -/
def State.writeEntropy (s : State) : State :=
  { s.writeByte s.cfg.entropyAddr s.entropyByte with draws := s.draws + 1 }

/-- One more executed instruction, in both counters (R42, R123). -/
def State.countStep (s : State) : State :=
  { s with count := s.count + 1, intervalCount := s.intervalCount + 1 }

/-- What an undefined opcode does before any breakpoint check (R311): under `halt` only `halted` and `run` change (R312);
under `nop` PC advances and the step is counted (R313). -/
def State.undefinedOpcode (s : State) : State :=
  match s.cfg.undefPolicy with
  | .halt => { s.halt with run := .halted }
  | .nop => ({ s with pc := s.pc + BitVec.ofNat 16 s.cfg.undefAdvance }.countStep).writeEntropy

end Sys2Proof.Machine
end

