-- ==== Sys2Proof/Machine/Operands.lean ====
section
/-! DEFINITION. The addressing-mode accessors (30_encoding.md R102 to R118). The operand bytes stand in the instruction, as
the decoder read them at PC+1 and PC+2 before any write of the step (R83). -/

namespace Sys2Proof.Machine

/-- The effective address of a memory mode (R107 to R112, R114, R115). -/
def State.ea (s : State) : MemOperand → Word
  | .zp b => zext16 b
  | .zpx b => zext16 (b + s.x)
  | .zpy b => zext16 (b + s.y)
  | .abs w => w
  | .absx w => w + zext16 s.x
  | .absy w => w + zext16 s.y
  | .indx b => s.readZpWord (b + s.x)
  | .indy b => s.readZpWord b + zext16 s.y

/-- `ReadOperand()` of an immediate or memory operand (R106, R117). -/
def State.readSource (s : State) : Source → Byte
  | .imm b => b
  | .mem m => s.readByte (s.ea m)

/-- `ReadOperand()` of an accumulator or memory operand (R104, R117). -/
def State.readTarget (s : State) : Target → Byte
  | .acc => s.a
  | .mem m => s.readByte (s.ea m)

/-- `WriteOperand(v)` of an accumulator or memory operand; a memory writer recomputes the address (R104, R117). -/
def State.writeTarget (s : State) (t : Target) (v : Byte) : State :=
  match t with
  | .acc => s.setA v
  | .mem m => s.writeByte (s.ea m) v

/-- The target of a relative branch at `pc` (R116). -/
def branchTarget (pc : Word) (offset : Byte) : Word := pc + 2 + sext16 offset

/-- Where JMP (indirect) reads its high target byte, by `JMP_IND_PAGE_WRAP` (R113). -/
def State.indirectHighAddr (s : State) (ptr : Word) : Word :=
  if s.cfg.jmpIndPageWrap then wordOf (loByte ptr + 1) (hiByte ptr) else ptr + 1

/-- The target of JMP (indirect) (R113). -/
def State.indirectTarget (s : State) (ptr : Word) : Word :=
  wordOf (s.readByte ptr) (s.readByte (s.indirectHighAddr ptr))

end Sys2Proof.Machine
end

