-- ==== Sys2Proof/Machine/Flags.lean ====
section
/-! DEFINITION. The status register's fields (R28) and every flag computation of the spec (R150 to R153, R156, R252, R253). -/

namespace Sys2Proof.Machine

/-- A flag's bit in P (R28). -/
def Flag.bit : Flag → Nat
  | .C => 0
  | .Z => 1
  | .I => 2
  | .D => 3
  | .B => 4
  | .U => 5
  | .V => 6
  | .N => 7

/-- A flag of a status byte. -/
def flagOf (p : Byte) (f : Flag) : Bool := p.getLsbD f.bit

/-- A status byte with one flag written and the rest left alone (R11). -/
def withFlag (p : Byte) (f : Flag) (v : Bool) : Byte :=
  if v then p ||| (1#8 <<< f.bit) else p &&& ~~~(1#8 <<< f.bit)

/-- `P.<f>` (R11). -/
def State.flag (s : State) (f : Flag) : Bool := flagOf s.p f

/-- `P.<f> <- v` (R11). -/
def State.setFlag (s : State) (f : Flag) (v : Bool) : State := s.setP (withFlag s.p f v)

/-- `SetNZ(v)` (R150). -/
def State.setNZ (s : State) (v : Byte) : State := (s.setFlag .Z (v == 0)).setFlag .N (v.getLsbD 7)

/-- The result byte, carry out and overflow of an addition or subtraction. -/
structure AluResult where
  r : Byte
  carry : Bool
  overflow : Bool
deriving DecidableEq, Repr

/-- The binary sum before any correction (R151). -/
def binSum (a m : Byte) (c : Bool) : Nat := a.toNat + m.toNat + c.toNat

/-- `BinAdd(a, m, c)` (R151): overflow when the operands' signs agree and the result's differs. -/
def binAdd (a m : Byte) (c : Bool) : AluResult :=
  let r := BitVec.ofNat 8 (binSum a m c)
  { r := r
    carry := decide (256 ≤ binSum a m c)
    overflow := (a.getLsbD 7 == m.getLsbD 7) && (r.getLsbD 7 != a.getLsbD 7) }

/-- The low nibble. -/
def loNibble (v : Byte) : Nat := v.toNat % 16

/-- The high nibble. -/
def hiNibble (v : Byte) : Nat := v.toNat / 16

/-- A byte of two nibble values, each taken modulo 16. -/
def byteOfNibbles (hi lo : Nat) : Byte := BitVec.ofNat 8 (hi % 16 * 16 + lo % 16)

/-- One digit of a decimal addition: a sum above 9 loses 10 and carries (R152). -/
def decDigitAdd (sum : Nat) : Nat × Bool := if 9 < sum then (sum - 10, true) else (sum, false)

/-- One digit of a decimal subtraction: a negative difference gains 10 and borrows (R153). -/
def decDigitSub (diff : Int) : Int × Bool := if diff < 0 then (diff + 10, true) else (diff, false)

/-- `DecAdd(a, m, c)` (R152): overflow is that of the uncorrected binary sum. -/
def decAdd (a m : Byte) (c : Bool) : AluResult :=
  let lo := decDigitAdd (loNibble a + loNibble m + c.toNat)
  let hi := decDigitAdd (hiNibble a + hiNibble m + lo.2.toNat)
  { r := byteOfNibbles hi.1 lo.1
    carry := hi.2
    overflow := (binAdd a m c).overflow }

/-- `DecSub(a, m, c)` (R153): the borrow in is the complement of the carry, the nibble is the mathematical remainder, and
overflow is that of the uncorrected binary result. -/
def decSub (a m : Byte) (c : Bool) : AluResult :=
  let lo := decDigitSub ((loNibble a : Int) - loNibble m - (!c).toNat)
  let hi := decDigitSub ((hiNibble a : Int) - hiNibble m - lo.2.toNat)
  { r := byteOfNibbles (hi.1 % 16).toNat (lo.1 % 16).toNat
    carry := !hi.2
    overflow := (binAdd a (~~~m) c).overflow }

/-- What ADC computes, by the decimal flag (R154). -/
def adcResult (a m : Byte) (c d : Bool) : AluResult := if d then decAdd a m c else binAdd a m c

/-- What SBC computes, by the decimal flag (R155). -/
def sbcResult (a m : Byte) (c d : Bool) : AluResult := if d then decSub a m c else binAdd a (~~~m) c

/-- Write an addition's or subtraction's result and flags (R154, R155). -/
def State.setAlu (s : State) (out : AluResult) : State :=
  (((s.setA out.r).setFlag .C out.carry).setFlag .V out.overflow).setNZ out.r

/-- `Compare(reg, m)` (R156): unsigned (D23), N from the wrapped difference in both unequal cases. -/
def State.compare (s : State) (reg m : Byte) : State :=
  let d := reg - m
  if reg.toNat < m.toNat then ((s.setFlag .N (d.getLsbD 7)).setFlag .Z false).setFlag .C false
  else if reg = m then ((s.setFlag .N false).setFlag .Z true).setFlag .C true
  else ((s.setFlag .N (d.getLsbD 7)).setFlag .Z false).setFlag .C true

/-- Write a shift's carry and N, Z (R194 to R197). -/
def State.setShift (s : State) (carry : Bool) (r : Byte) : State := (s.setFlag .C carry).setNZ r

/-- The byte PHP pushes: break and the unused bit forced to 1 (R252). -/
def pushedStatus (p : Byte) : Byte := p ||| 0x30

/-- The status PLP and RTI restore: break and the unused bit kept (R232, R253). -/
def restoredStatus (pulled p : Byte) : Byte := (pulled &&& 0xCF) ||| (p &&& 0x30)

end Sys2Proof.Machine
end

