-- ==== Sys2Proof/Machine/Arithmetic.lean ====
section
/-! DEFINITION. ADC, SBC, the compares, and the increments and decrements (40_arithmetic.md, R154 to R165). Each returns `Advance`. -/

namespace Sys2Proof.Machine

/-- ADC (R154). -/
def opADC (src : Source) (s : State) : Result :=
  .next (s.setAlu (adcResult s.a (s.readSource src) (s.flag .C) (s.flag .D))).advance

/-- `ADC #value`, opcode 69 (R154, R106). -/
def execAdcImm (value : Byte) (s : State) : Result := opADC (.imm value) s

/-- `ADC base`, opcode 65 (R154, R107). -/
def execAdcZp (base : Byte) (s : State) : Result := opADC (.mem (.zp base)) s

/-- `ADC base,X`, opcode 75 (R154, R108). -/
def execAdcZpX (base : Byte) (s : State) : Result := opADC (.mem (.zpx base)) s

/-- `ADC addr`, opcode 6D (R154, R110). -/
def execAdcAbs (addr : Word) (s : State) : Result := opADC (.mem (.abs addr)) s

/-- `ADC base,X`, opcode 7D (R154, R111). -/
def execAdcAbsX (base : Word) (s : State) : Result := opADC (.mem (.absx base)) s

/-- `ADC base,Y`, opcode 79 (R154, R112). -/
def execAdcAbsY (base : Word) (s : State) : Result := opADC (.mem (.absy base)) s

/-- `ADC (ptr,X)`, opcode 61 (R154, R114). -/
def execAdcIndX (ptr : Byte) (s : State) : Result := opADC (.mem (.indx ptr)) s

/-- `ADC (ptr),Y`, opcode 71 (R154, R115). -/
def execAdcIndY (ptr : Byte) (s : State) : Result := opADC (.mem (.indy ptr)) s

/-- SBC (R155): the borrow is the complement of the carry. -/
def opSBC (src : Source) (s : State) : Result :=
  .next (s.setAlu (sbcResult s.a (s.readSource src) (s.flag .C) (s.flag .D))).advance

/-- `SBC #value`, opcode E9 (R155, R106). -/
def execSbcImm (value : Byte) (s : State) : Result := opSBC (.imm value) s

/-- `SBC base`, opcode E5 (R155, R107). -/
def execSbcZp (base : Byte) (s : State) : Result := opSBC (.mem (.zp base)) s

/-- `SBC base,X`, opcode F5 (R155, R108). -/
def execSbcZpX (base : Byte) (s : State) : Result := opSBC (.mem (.zpx base)) s

/-- `SBC addr`, opcode ED (R155, R110). -/
def execSbcAbs (addr : Word) (s : State) : Result := opSBC (.mem (.abs addr)) s

/-- `SBC base,X`, opcode FD (R155, R111). -/
def execSbcAbsX (base : Word) (s : State) : Result := opSBC (.mem (.absx base)) s

/-- `SBC base,Y`, opcode F9 (R155, R112). -/
def execSbcAbsY (base : Word) (s : State) : Result := opSBC (.mem (.absy base)) s

/-- `SBC (ptr,X)`, opcode E1 (R155, R114). -/
def execSbcIndX (ptr : Byte) (s : State) : Result := opSBC (.mem (.indx ptr)) s

/-- `SBC (ptr),Y`, opcode F1 (R155, R115). -/
def execSbcIndY (ptr : Byte) (s : State) : Result := opSBC (.mem (.indy ptr)) s

/-- CMP (R157). -/
def opCMP (src : Source) (s : State) : Result :=
  .next (s.compare s.a (s.readSource src)).advance

/-- `CMP #value`, opcode C9 (R157, R106). -/
def execCmpImm (value : Byte) (s : State) : Result := opCMP (.imm value) s

/-- `CMP base`, opcode C5 (R157, R107). -/
def execCmpZp (base : Byte) (s : State) : Result := opCMP (.mem (.zp base)) s

/-- `CMP base,X`, opcode D5 (R157, R108). -/
def execCmpZpX (base : Byte) (s : State) : Result := opCMP (.mem (.zpx base)) s

/-- `CMP addr`, opcode CD (R157, R110). -/
def execCmpAbs (addr : Word) (s : State) : Result := opCMP (.mem (.abs addr)) s

/-- `CMP base,X`, opcode DD (R157, R111). -/
def execCmpAbsX (base : Word) (s : State) : Result := opCMP (.mem (.absx base)) s

/-- `CMP base,Y`, opcode D9 (R157, R112). -/
def execCmpAbsY (base : Word) (s : State) : Result := opCMP (.mem (.absy base)) s

/-- `CMP (ptr,X)`, opcode C1 (R157, R114). -/
def execCmpIndX (ptr : Byte) (s : State) : Result := opCMP (.mem (.indx ptr)) s

/-- `CMP (ptr),Y`, opcode D1 (R157, R115). -/
def execCmpIndY (ptr : Byte) (s : State) : Result := opCMP (.mem (.indy ptr)) s

/-- CPX (R158). -/
def opCPX (src : Source) (s : State) : Result :=
  .next (s.compare s.x (s.readSource src)).advance

/-- `CPX #value`, opcode E0 (R158, R106). -/
def execCpxImm (value : Byte) (s : State) : Result := opCPX (.imm value) s

/-- `CPX base`, opcode E4 (R158, R107). -/
def execCpxZp (base : Byte) (s : State) : Result := opCPX (.mem (.zp base)) s

/-- `CPX addr`, opcode EC (R158, R110). -/
def execCpxAbs (addr : Word) (s : State) : Result := opCPX (.mem (.abs addr)) s

/-- CPY (R159). -/
def opCPY (src : Source) (s : State) : Result :=
  .next (s.compare s.y (s.readSource src)).advance

/-- `CPY #value`, opcode C0 (R159, R106). -/
def execCpyImm (value : Byte) (s : State) : Result := opCPY (.imm value) s

/-- `CPY base`, opcode C4 (R159, R107). -/
def execCpyZp (base : Byte) (s : State) : Result := opCPY (.mem (.zp base)) s

/-- `CPY addr`, opcode CC (R159, R110). -/
def execCpyAbs (addr : Word) (s : State) : Result := opCPY (.mem (.abs addr)) s

/-- INC (R160): one read and one write at the same address (R85). -/
def opINC (m : MemOperand) (s : State) : Result :=
  let r := s.readTarget (.mem m) + 1
  .next ((s.writeTarget (.mem m) r).setNZ r).advance

/-- `INC base`, opcode E6 (R160, R107). -/
def execIncZp (base : Byte) (s : State) : Result := opINC (.zp base) s

/-- `INC base,X`, opcode F6 (R160, R108). -/
def execIncZpX (base : Byte) (s : State) : Result := opINC (.zpx base) s

/-- `INC addr`, opcode EE (R160, R110). -/
def execIncAbs (addr : Word) (s : State) : Result := opINC (.abs addr) s

/-- `INC base,X`, opcode FE (R160, R111). -/
def execIncAbsX (base : Word) (s : State) : Result := opINC (.absx base) s

/-- DEC (R161). -/
def opDEC (m : MemOperand) (s : State) : Result :=
  let r := s.readTarget (.mem m) - 1
  .next ((s.writeTarget (.mem m) r).setNZ r).advance

/-- `DEC base`, opcode C6 (R161, R107). -/
def execDecZp (base : Byte) (s : State) : Result := opDEC (.zp base) s

/-- `DEC base,X`, opcode D6 (R161, R108). -/
def execDecZpX (base : Byte) (s : State) : Result := opDEC (.zpx base) s

/-- `DEC addr`, opcode CE (R161, R110). -/
def execDecAbs (addr : Word) (s : State) : Result := opDEC (.abs addr) s

/-- `DEC base,X`, opcode DE (R161, R111). -/
def execDecAbsX (base : Word) (s : State) : Result := opDEC (.absx base) s

/-- INX (R162). -/
def opINX (s : State) : Result :=
  .next ((s.setX (s.x + 1)).setNZ (s.x + 1)).advance

/-- `INX`, opcode E8 (R162). -/
def execInx (s : State) : Result := opINX s

/-- INY (R163). -/
def opINY (s : State) : Result :=
  .next ((s.setY (s.y + 1)).setNZ (s.y + 1)).advance

/-- `INY`, opcode C8 (R163). -/
def execIny (s : State) : Result := opINY s

/-- DEX (R164). -/
def opDEX (s : State) : Result :=
  .next ((s.setX (s.x - 1)).setNZ (s.x - 1)).advance

/-- `DEX`, opcode CA (R164). -/
def execDex (s : State) : Result := opDEX s

/-- DEY (R165). -/
def opDEY (s : State) : Result :=
  .next ((s.setY (s.y - 1)).setNZ (s.y - 1)).advance

/-- `DEY`, opcode 88 (R165). -/
def execDey (s : State) : Result := opDEY s

end Sys2Proof.Machine
end

