-- ==== Sys2Proof/Machine/Control.lean ====
section
/-! DEFINITION. Branches, jumps, calls and returns (42_control_flow.md, R220 to R232). -/

namespace Sys2Proof.Machine

/-- `Branch(cond)` (R220): taken, PC is the relative-mode target and the signal is raised; else PC falls through. -/
def opBranch (cond : Bool) (offset : Byte) (s : State) : Result :=
  .next (if cond then s.jump (branchTarget s.pc offset) else s.advance)

/-- BCC (R221): branch if carry clear. -/
def opBCC (offset : Byte) (s : State) : Result :=
  opBranch (!s.flag .C) offset s

/-- `BCC offset`, opcode 90 (R221, R116). -/
def execBcc (offset : Byte) (s : State) : Result := opBCC offset s

/-- BCS (R222): branch if carry set. -/
def opBCS (offset : Byte) (s : State) : Result :=
  opBranch (s.flag .C) offset s

/-- `BCS offset`, opcode B0 (R222, R116). -/
def execBcs (offset : Byte) (s : State) : Result := opBCS offset s

/-- BEQ (R223): branch if zero set. -/
def opBEQ (offset : Byte) (s : State) : Result :=
  opBranch (s.flag .Z) offset s

/-- `BEQ offset`, opcode F0 (R223, R116). -/
def execBeq (offset : Byte) (s : State) : Result := opBEQ offset s

/-- BNE (R224): branch if zero clear. -/
def opBNE (offset : Byte) (s : State) : Result :=
  opBranch (!s.flag .Z) offset s

/-- `BNE offset`, opcode D0 (R224, R116). -/
def execBne (offset : Byte) (s : State) : Result := opBNE offset s

/-- BPL (R225): branch if negative clear. -/
def opBPL (offset : Byte) (s : State) : Result :=
  opBranch (!s.flag .N) offset s

/-- `BPL offset`, opcode 10 (R225, R116). -/
def execBpl (offset : Byte) (s : State) : Result := opBPL offset s

/-- BMI (R226): branch if negative set. -/
def opBMI (offset : Byte) (s : State) : Result :=
  opBranch (s.flag .N) offset s

/-- `BMI offset`, opcode 30 (R226, R116). -/
def execBmi (offset : Byte) (s : State) : Result := opBMI offset s

/-- BVC (R227): branch if overflow clear. -/
def opBVC (offset : Byte) (s : State) : Result :=
  opBranch (!s.flag .V) offset s

/-- `BVC offset`, opcode 50 (R227, R116). -/
def execBvc (offset : Byte) (s : State) : Result := opBVC offset s

/-- BVS (R228): branch if overflow set. -/
def opBVS (offset : Byte) (s : State) : Result :=
  opBranch (s.flag .V) offset s

/-- `BVS offset`, opcode 70 (R228, R116). -/
def execBvs (offset : Byte) (s : State) : Result := opBVS offset s

/-- JMP (R229): the target is the word at PC+1, or the word stored there for the indirect form (C8). -/
def opJMP (target : Word) (s : State) : Result :=
  .next (s.jump target)

/-- `JMP target`, opcode 4C (R229, R110). -/
def execJmpAbs (target : Word) (s : State) : Result := opJMP target s

/-- `JMP (ptr)`, opcode 6C (R229, R113). -/
def execJmpInd (ptr : Word) (s : State) : Result := opJMP (s.indirectTarget ptr) s

/-- JSR (R230): push the address of its own last byte, high byte first, then jump. The target was read before the
pushes (R83, D16). -/
def opJSR (target : Word) (s : State) : Result :=
  let ret := s.pc + 2
  .next (((s.push (hiByte ret)).push (loByte ret)).jump target)

/-- `JSR target`, opcode 20 (R230, R110). -/
def execJsr (target : Word) (s : State) : Result := opJSR target s

/-- RTS (R231): pull low, pull high, add 1. -/
def opRTS (s : State) : Result :=
  let s1 := s.pulled
  .next (s1.pulled.jump (wordOf s.pullByte s1.pullByte + 1))

/-- `RTS`, opcode 60 (R231). -/
def execRts (s : State) : Result := opRTS s

/-- RTI (R232): the flag restore of PLP, then the pulled address without the increment. -/
def opRTI (s : State) : Result :=
  let s1 := s.pulled
  let s2 := s1.pulled
  .next ((s2.pulled.setP (restoredStatus s.pullByte s.p)).jump (wordOf s1.pullByte s2.pullByte))

/-- `RTI`, opcode 40 (R232). -/
def execRti (s : State) : Result := opRTI s

end Sys2Proof.Machine
end

