-- ==== Sys2Proof/Machine/Logic.lean ====
section
/-! DEFINITION. The logical instructions, BIT, and the shifts and rotates (41_logic_shift.md, R190 to R197). Each returns `Advance`. -/

namespace Sys2Proof.Machine

/-- AND (R190). -/
def opAND (src : Source) (s : State) : Result :=
  let r := s.a &&& s.readSource src
  .next ((s.setA r).setNZ r).advance

/-- `AND #value`, opcode 29 (R190, R106). -/
def execAndImm (value : Byte) (s : State) : Result := opAND (.imm value) s

/-- `AND base`, opcode 25 (R190, R107). -/
def execAndZp (base : Byte) (s : State) : Result := opAND (.mem (.zp base)) s

/-- `AND base,X`, opcode 35 (R190, R108). -/
def execAndZpX (base : Byte) (s : State) : Result := opAND (.mem (.zpx base)) s

/-- `AND addr`, opcode 2D (R190, R110). -/
def execAndAbs (addr : Word) (s : State) : Result := opAND (.mem (.abs addr)) s

/-- `AND base,X`, opcode 3D (R190, R111). -/
def execAndAbsX (base : Word) (s : State) : Result := opAND (.mem (.absx base)) s

/-- `AND base,Y`, opcode 39 (R190, R112). -/
def execAndAbsY (base : Word) (s : State) : Result := opAND (.mem (.absy base)) s

/-- `AND (ptr,X)`, opcode 21 (R190, R114). -/
def execAndIndX (ptr : Byte) (s : State) : Result := opAND (.mem (.indx ptr)) s

/-- `AND (ptr),Y`, opcode 31 (R190, R115). -/
def execAndIndY (ptr : Byte) (s : State) : Result := opAND (.mem (.indy ptr)) s

/-- ORA (R191). -/
def opORA (src : Source) (s : State) : Result :=
  let r := s.a ||| s.readSource src
  .next ((s.setA r).setNZ r).advance

/-- `ORA #value`, opcode 09 (R191, R106). -/
def execOraImm (value : Byte) (s : State) : Result := opORA (.imm value) s

/-- `ORA base`, opcode 05 (R191, R107). -/
def execOraZp (base : Byte) (s : State) : Result := opORA (.mem (.zp base)) s

/-- `ORA base,X`, opcode 15 (R191, R108). -/
def execOraZpX (base : Byte) (s : State) : Result := opORA (.mem (.zpx base)) s

/-- `ORA addr`, opcode 0D (R191, R110). -/
def execOraAbs (addr : Word) (s : State) : Result := opORA (.mem (.abs addr)) s

/-- `ORA base,X`, opcode 1D (R191, R111). -/
def execOraAbsX (base : Word) (s : State) : Result := opORA (.mem (.absx base)) s

/-- `ORA base,Y`, opcode 19 (R191, R112). -/
def execOraAbsY (base : Word) (s : State) : Result := opORA (.mem (.absy base)) s

/-- `ORA (ptr,X)`, opcode 01 (R191, R114). -/
def execOraIndX (ptr : Byte) (s : State) : Result := opORA (.mem (.indx ptr)) s

/-- `ORA (ptr),Y`, opcode 11 (R191, R115). -/
def execOraIndY (ptr : Byte) (s : State) : Result := opORA (.mem (.indy ptr)) s

/-- EOR (R192). -/
def opEOR (src : Source) (s : State) : Result :=
  let r := s.a ^^^ s.readSource src
  .next ((s.setA r).setNZ r).advance

/-- `EOR #value`, opcode 49 (R192, R106). -/
def execEorImm (value : Byte) (s : State) : Result := opEOR (.imm value) s

/-- `EOR base`, opcode 45 (R192, R107). -/
def execEorZp (base : Byte) (s : State) : Result := opEOR (.mem (.zp base)) s

/-- `EOR base,X`, opcode 55 (R192, R108). -/
def execEorZpX (base : Byte) (s : State) : Result := opEOR (.mem (.zpx base)) s

/-- `EOR addr`, opcode 4D (R192, R110). -/
def execEorAbs (addr : Word) (s : State) : Result := opEOR (.mem (.abs addr)) s

/-- `EOR base,X`, opcode 5D (R192, R111). -/
def execEorAbsX (base : Word) (s : State) : Result := opEOR (.mem (.absx base)) s

/-- `EOR base,Y`, opcode 59 (R192, R112). -/
def execEorAbsY (base : Word) (s : State) : Result := opEOR (.mem (.absy base)) s

/-- `EOR (ptr,X)`, opcode 41 (R192, R114). -/
def execEorIndX (ptr : Byte) (s : State) : Result := opEOR (.mem (.indx ptr)) s

/-- `EOR (ptr),Y`, opcode 51 (R192, R115). -/
def execEorIndY (ptr : Byte) (s : State) : Result := opEOR (.mem (.indy ptr)) s

/-- BIT (R193): Z from `A & m`, N and V from bits 7 and 6 of the memory byte. -/
def opBIT (m : MemOperand) (s : State) : Result :=
  let v := s.readSource (.mem m)
  .next (((s.setFlag .Z (s.a &&& v == 0)).setFlag .N (v.getLsbD 7)).setFlag .V (v.getLsbD 6)).advance

/-- `BIT base`, opcode 24 (R193, R107). -/
def execBitZp (base : Byte) (s : State) : Result := opBIT (.zp base) s

/-- `BIT addr`, opcode 2C (R193, R110). -/
def execBitAbs (addr : Word) (s : State) : Result := opBIT (.abs addr) s

/-- ASL (R194): the carry is bit 7 before the shift. -/
def opASL (t : Target) (s : State) : Result :=
  let m := s.readTarget t
  let r := m <<< 1
  .next ((s.writeTarget t r).setShift (m.getLsbD 7) r).advance

/-- `ASL A`, opcode 0A (R194, R104). -/
def execAslAcc (s : State) : Result := opASL .acc s

/-- `ASL base`, opcode 06 (R194, R107). -/
def execAslZp (base : Byte) (s : State) : Result := opASL (.mem (.zp base)) s

/-- `ASL base,X`, opcode 16 (R194, R108). -/
def execAslZpX (base : Byte) (s : State) : Result := opASL (.mem (.zpx base)) s

/-- `ASL addr`, opcode 0E (R194, R110). -/
def execAslAbs (addr : Word) (s : State) : Result := opASL (.mem (.abs addr)) s

/-- `ASL base,X`, opcode 1E (R194, R111). -/
def execAslAbsX (base : Word) (s : State) : Result := opASL (.mem (.absx base)) s

/-- LSR (R195): the carry is bit 0 before the shift. -/
def opLSR (t : Target) (s : State) : Result :=
  let m := s.readTarget t
  let r := m >>> 1
  .next ((s.writeTarget t r).setShift (m.getLsbD 0) r).advance

/-- `LSR A`, opcode 4A (R195, R104). -/
def execLsrAcc (s : State) : Result := opLSR .acc s

/-- `LSR base`, opcode 46 (R195, R107). -/
def execLsrZp (base : Byte) (s : State) : Result := opLSR (.mem (.zp base)) s

/-- `LSR base,X`, opcode 56 (R195, R108). -/
def execLsrZpX (base : Byte) (s : State) : Result := opLSR (.mem (.zpx base)) s

/-- `LSR addr`, opcode 4E (R195, R110). -/
def execLsrAbs (addr : Word) (s : State) : Result := opLSR (.mem (.abs addr)) s

/-- `LSR base,X`, opcode 5E (R195, R111). -/
def execLsrAbsX (base : Word) (s : State) : Result := opLSR (.mem (.absx base)) s

/-- ROL (R196): the previous carry enters bit 0. -/
def opROL (t : Target) (s : State) : Result :=
  let m := s.readTarget t
  let r := m <<< 1 ||| (if s.flag .C then 0x01 else 0x00)
  .next ((s.writeTarget t r).setShift (m.getLsbD 7) r).advance

/-- `ROL A`, opcode 2A (R196, R104). -/
def execRolAcc (s : State) : Result := opROL .acc s

/-- `ROL base`, opcode 26 (R196, R107). -/
def execRolZp (base : Byte) (s : State) : Result := opROL (.mem (.zp base)) s

/-- `ROL base,X`, opcode 36 (R196, R108). -/
def execRolZpX (base : Byte) (s : State) : Result := opROL (.mem (.zpx base)) s

/-- `ROL addr`, opcode 2E (R196, R110). -/
def execRolAbs (addr : Word) (s : State) : Result := opROL (.mem (.abs addr)) s

/-- `ROL base,X`, opcode 3E (R196, R111). -/
def execRolAbsX (base : Word) (s : State) : Result := opROL (.mem (.absx base)) s

/-- ROR (R197): the previous carry enters bit 7. -/
def opROR (t : Target) (s : State) : Result :=
  let m := s.readTarget t
  let r := m >>> 1 ||| (if s.flag .C then 0x80 else 0x00)
  .next ((s.writeTarget t r).setShift (m.getLsbD 0) r).advance

/-- `ROR A`, opcode 6A (R197, R104). -/
def execRorAcc (s : State) : Result := opROR .acc s

/-- `ROR base`, opcode 66 (R197, R107). -/
def execRorZp (base : Byte) (s : State) : Result := opROR (.mem (.zp base)) s

/-- `ROR base,X`, opcode 76 (R197, R108). -/
def execRorZpX (base : Byte) (s : State) : Result := opROR (.mem (.zpx base)) s

/-- `ROR addr`, opcode 6E (R197, R110). -/
def execRorAbs (addr : Word) (s : State) : Result := opROR (.mem (.abs addr)) s

/-- `ROR base,X`, opcode 7E (R197, R111). -/
def execRorAbsX (base : Word) (s : State) : Result := opROR (.mem (.absx base)) s

end Sys2Proof.Machine
end

