-- ==== Sys2Proof/Machine/Stack.lean ====
section
/-! DEFINITION. The stack instructions, BRK and NOP (43_stack_system.md, R250 to R255). Each returns `Advance`. -/

namespace Sys2Proof.Machine

/-- PHA (R250). -/
def opPHA (s : State) : Result :=
  .next (s.push s.a).advance

/-- `PHA`, opcode 48 (R250). -/
def execPha (s : State) : Result := opPHA s

/-- PLA (R251). -/
def opPLA (s : State) : Result :=
  .next ((s.pulled.setA s.pullByte).setNZ s.pullByte).advance

/-- `PLA`, opcode 68 (R251). -/
def execPla (s : State) : Result := opPLA s

/-- PHP (R252): only the pushed copy has break and the unused bit set. -/
def opPHP (s : State) : Result :=
  .next (s.push (pushedStatus s.p)).advance

/-- `PHP`, opcode 08 (R252). -/
def execPhp (s : State) : Result := opPHP s

/-- PLP (R253): break and the unused bit are not restored. -/
def opPLP (s : State) : Result :=
  .next (s.pulled.setP (restoredStatus s.pullByte s.p)).advance

/-- `PLP`, opcode 28 (R253). -/
def execPlp (s : State) : Result := opPLP s

/-- BRK (R254): it halts, pushes nothing and reads no vector (C5); the scheduler then advances PC by 1 (D10). -/
def opBRK (s : State) : Result :=
  .next s.halt.advance

/-- `BRK`, opcode 00 (R254). -/
def execBrk (s : State) : Result := opBRK s

/-- NOP (R255). -/
def opNOP (s : State) : Result :=
  .next s.advance

/-- `NOP`, opcode EA (R255). -/
def execNop (s : State) : Result := opNOP s

end Sys2Proof.Machine
end

