-- ==== Sys2Proof/Machine/Transfer.lean ====
section
/-! DEFINITION. Loads, stores, transfers and flag instructions (44_load_store_transfer_flag.md, R270 to R288). Each returns `Advance`. -/

namespace Sys2Proof.Machine

/-- LDA (R270). -/
def opLDA (src : Source) (s : State) : Result :=
  let v := s.readSource src
  .next ((s.setA v).setNZ v).advance

/-- `LDA #value`, opcode A9 (R270, R106). -/
def execLdaImm (value : Byte) (s : State) : Result := opLDA (.imm value) s

/-- `LDA base`, opcode A5 (R270, R107). -/
def execLdaZp (base : Byte) (s : State) : Result := opLDA (.mem (.zp base)) s

/-- `LDA base,X`, opcode B5 (R270, R108). -/
def execLdaZpX (base : Byte) (s : State) : Result := opLDA (.mem (.zpx base)) s

/-- `LDA addr`, opcode AD (R270, R110). -/
def execLdaAbs (addr : Word) (s : State) : Result := opLDA (.mem (.abs addr)) s

/-- `LDA base,X`, opcode BD (R270, R111). -/
def execLdaAbsX (base : Word) (s : State) : Result := opLDA (.mem (.absx base)) s

/-- `LDA base,Y`, opcode B9 (R270, R112). -/
def execLdaAbsY (base : Word) (s : State) : Result := opLDA (.mem (.absy base)) s

/-- `LDA (ptr,X)`, opcode A1 (R270, R114). -/
def execLdaIndX (ptr : Byte) (s : State) : Result := opLDA (.mem (.indx ptr)) s

/-- `LDA (ptr),Y`, opcode B1 (R270, R115). -/
def execLdaIndY (ptr : Byte) (s : State) : Result := opLDA (.mem (.indy ptr)) s

/-- LDX (R271). -/
def opLDX (src : Source) (s : State) : Result :=
  let v := s.readSource src
  .next ((s.setX v).setNZ v).advance

/-- `LDX #value`, opcode A2 (R271, R106). -/
def execLdxImm (value : Byte) (s : State) : Result := opLDX (.imm value) s

/-- `LDX base`, opcode A6 (R271, R107). -/
def execLdxZp (base : Byte) (s : State) : Result := opLDX (.mem (.zp base)) s

/-- `LDX base,Y`, opcode B6 (R271, R109). -/
def execLdxZpY (base : Byte) (s : State) : Result := opLDX (.mem (.zpy base)) s

/-- `LDX addr`, opcode AE (R271, R110). -/
def execLdxAbs (addr : Word) (s : State) : Result := opLDX (.mem (.abs addr)) s

/-- `LDX base,Y`, opcode BE (R271, R112). -/
def execLdxAbsY (base : Word) (s : State) : Result := opLDX (.mem (.absy base)) s

/-- LDY (R272). -/
def opLDY (src : Source) (s : State) : Result :=
  let v := s.readSource src
  .next ((s.setY v).setNZ v).advance

/-- `LDY #value`, opcode A0 (R272, R106). -/
def execLdyImm (value : Byte) (s : State) : Result := opLDY (.imm value) s

/-- `LDY base`, opcode A4 (R272, R107). -/
def execLdyZp (base : Byte) (s : State) : Result := opLDY (.mem (.zp base)) s

/-- `LDY base,X`, opcode B4 (R272, R108). -/
def execLdyZpX (base : Byte) (s : State) : Result := opLDY (.mem (.zpx base)) s

/-- `LDY addr`, opcode AC (R272, R110). -/
def execLdyAbs (addr : Word) (s : State) : Result := opLDY (.mem (.abs addr)) s

/-- `LDY base,X`, opcode BC (R272, R111). -/
def execLdyAbsX (base : Word) (s : State) : Result := opLDY (.mem (.absx base)) s

/-- STA (R273): one write, no read, no flag (R85). -/
def opSTA (m : MemOperand) (s : State) : Result :=
  .next (s.writeTarget (.mem m) s.a).advance

/-- `STA base`, opcode 85 (R273, R107). -/
def execStaZp (base : Byte) (s : State) : Result := opSTA (.zp base) s

/-- `STA base,X`, opcode 95 (R273, R108). -/
def execStaZpX (base : Byte) (s : State) : Result := opSTA (.zpx base) s

/-- `STA addr`, opcode 8D (R273, R110). -/
def execStaAbs (addr : Word) (s : State) : Result := opSTA (.abs addr) s

/-- `STA base,X`, opcode 9D (R273, R111). -/
def execStaAbsX (base : Word) (s : State) : Result := opSTA (.absx base) s

/-- `STA base,Y`, opcode 99 (R273, R112). -/
def execStaAbsY (base : Word) (s : State) : Result := opSTA (.absy base) s

/-- `STA (ptr,X)`, opcode 81 (R273, R114). -/
def execStaIndX (ptr : Byte) (s : State) : Result := opSTA (.indx ptr) s

/-- `STA (ptr),Y`, opcode 91 (R273, R115). -/
def execStaIndY (ptr : Byte) (s : State) : Result := opSTA (.indy ptr) s

/-- STX (R274): one write, no read, no flag (R85). -/
def opSTX (m : MemOperand) (s : State) : Result :=
  .next (s.writeTarget (.mem m) s.x).advance

/-- `STX base`, opcode 86 (R274, R107). -/
def execStxZp (base : Byte) (s : State) : Result := opSTX (.zp base) s

/-- `STX base,Y`, opcode 96 (R274, R109). -/
def execStxZpY (base : Byte) (s : State) : Result := opSTX (.zpy base) s

/-- `STX addr`, opcode 8E (R274, R110). -/
def execStxAbs (addr : Word) (s : State) : Result := opSTX (.abs addr) s

/-- STY (R275): one write, no read, no flag (R85). -/
def opSTY (m : MemOperand) (s : State) : Result :=
  .next (s.writeTarget (.mem m) s.y).advance

/-- `STY base`, opcode 84 (R275, R107). -/
def execStyZp (base : Byte) (s : State) : Result := opSTY (.zp base) s

/-- `STY base,X`, opcode 94 (R275, R108). -/
def execStyZpX (base : Byte) (s : State) : Result := opSTY (.zpx base) s

/-- `STY addr`, opcode 8C (R275, R110). -/
def execStyAbs (addr : Word) (s : State) : Result := opSTY (.abs addr) s

/-- TAX (R276). -/
def opTAX (s : State) : Result :=
  .next ((s.setX s.a).setNZ s.a).advance

/-- `TAX`, opcode AA (R276). -/
def execTax (s : State) : Result := opTAX s

/-- TAY (R277). -/
def opTAY (s : State) : Result :=
  .next ((s.setY s.a).setNZ s.a).advance

/-- `TAY`, opcode A8 (R277). -/
def execTay (s : State) : Result := opTAY s

/-- TXA (R278). -/
def opTXA (s : State) : Result :=
  .next ((s.setA s.x).setNZ s.x).advance

/-- `TXA`, opcode 8A (R278). -/
def execTxa (s : State) : Result := opTXA s

/-- TYA (R279). -/
def opTYA (s : State) : Result :=
  .next ((s.setA s.y).setNZ s.y).advance

/-- `TYA`, opcode 98 (R279). -/
def execTya (s : State) : Result := opTYA s

/-- TSX (R280). -/
def opTSX (s : State) : Result :=
  .next ((s.setX s.sp).setNZ s.sp).advance

/-- `TSX`, opcode BA (R280). -/
def execTsx (s : State) : Result := opTSX s

/-- TXS (R281): no flag is written (C4, D14). -/
def opTXS (s : State) : Result :=
  .next (s.setSp s.x).advance

/-- `TXS`, opcode 9A (R281). -/
def execTxs (s : State) : Result := opTXS s

/-- CLC (R282). -/
def opCLC (s : State) : Result :=
  .next (s.setFlag .C false).advance

/-- `CLC`, opcode 18 (R282). -/
def execClc (s : State) : Result := opCLC s

/-- SEC (R283). -/
def opSEC (s : State) : Result :=
  .next (s.setFlag .C true).advance

/-- `SEC`, opcode 38 (R283). -/
def execSec (s : State) : Result := opSEC s

/-- CLI (R284). -/
def opCLI (s : State) : Result :=
  .next (s.setFlag .I false).advance

/-- `CLI`, opcode 58 (R284). -/
def execCli (s : State) : Result := opCLI s

/-- SEI (R285). -/
def opSEI (s : State) : Result :=
  .next (s.setFlag .I true).advance

/-- `SEI`, opcode 78 (R285). -/
def execSei (s : State) : Result := opSEI s

/-- CLD (R286). -/
def opCLD (s : State) : Result :=
  .next (s.setFlag .D false).advance

/-- `CLD`, opcode D8 (R286). -/
def execCld (s : State) : Result := opCLD s

/-- SED (R287). -/
def opSED (s : State) : Result :=
  .next (s.setFlag .D true).advance

/-- `SED`, opcode F8 (R287). -/
def execSed (s : State) : Result := opSED s

/-- CLV (R288). -/
def opCLV (s : State) : Result :=
  .next (s.setFlag .V false).advance

/-- `CLV`, opcode B8 (R288). -/
def execClv (s : State) : Result := opCLV s

end Sys2Proof.Machine
end

