-- ==== Sys2Proof/Machine/Dispatch.lean ====
section
/-! DEFINITION. `Exec` of R123: one arm per constructor of `Instr`. -/

namespace Sys2Proof.Machine

def exec (i : Instr) (s : State) : Host.Outcome State Fault Refusal :=
  match i with
  | .adcImm value => Sys2Proof.Machine.execAdcImm value s
  | .adcZp base => Sys2Proof.Machine.execAdcZp base s
  | .adcZpX base => Sys2Proof.Machine.execAdcZpX base s
  | .adcAbs addr => Sys2Proof.Machine.execAdcAbs addr s
  | .adcAbsX base => Sys2Proof.Machine.execAdcAbsX base s
  | .adcAbsY base => Sys2Proof.Machine.execAdcAbsY base s
  | .adcIndX ptr => Sys2Proof.Machine.execAdcIndX ptr s
  | .adcIndY ptr => Sys2Proof.Machine.execAdcIndY ptr s
  | .sbcImm value => Sys2Proof.Machine.execSbcImm value s
  | .sbcZp base => Sys2Proof.Machine.execSbcZp base s
  | .sbcZpX base => Sys2Proof.Machine.execSbcZpX base s
  | .sbcAbs addr => Sys2Proof.Machine.execSbcAbs addr s
  | .sbcAbsX base => Sys2Proof.Machine.execSbcAbsX base s
  | .sbcAbsY base => Sys2Proof.Machine.execSbcAbsY base s
  | .sbcIndX ptr => Sys2Proof.Machine.execSbcIndX ptr s
  | .sbcIndY ptr => Sys2Proof.Machine.execSbcIndY ptr s
  | .cmpImm value => Sys2Proof.Machine.execCmpImm value s
  | .cmpZp base => Sys2Proof.Machine.execCmpZp base s
  | .cmpZpX base => Sys2Proof.Machine.execCmpZpX base s
  | .cmpAbs addr => Sys2Proof.Machine.execCmpAbs addr s
  | .cmpAbsX base => Sys2Proof.Machine.execCmpAbsX base s
  | .cmpAbsY base => Sys2Proof.Machine.execCmpAbsY base s
  | .cmpIndX ptr => Sys2Proof.Machine.execCmpIndX ptr s
  | .cmpIndY ptr => Sys2Proof.Machine.execCmpIndY ptr s
  | .cpxImm value => Sys2Proof.Machine.execCpxImm value s
  | .cpxZp base => Sys2Proof.Machine.execCpxZp base s
  | .cpxAbs addr => Sys2Proof.Machine.execCpxAbs addr s
  | .cpyImm value => Sys2Proof.Machine.execCpyImm value s
  | .cpyZp base => Sys2Proof.Machine.execCpyZp base s
  | .cpyAbs addr => Sys2Proof.Machine.execCpyAbs addr s
  | .incZp base => Sys2Proof.Machine.execIncZp base s
  | .incZpX base => Sys2Proof.Machine.execIncZpX base s
  | .incAbs addr => Sys2Proof.Machine.execIncAbs addr s
  | .incAbsX base => Sys2Proof.Machine.execIncAbsX base s
  | .decZp base => Sys2Proof.Machine.execDecZp base s
  | .decZpX base => Sys2Proof.Machine.execDecZpX base s
  | .decAbs addr => Sys2Proof.Machine.execDecAbs addr s
  | .decAbsX base => Sys2Proof.Machine.execDecAbsX base s
  | .inx => Sys2Proof.Machine.execInx s
  | .iny => Sys2Proof.Machine.execIny s
  | .dex => Sys2Proof.Machine.execDex s
  | .dey => Sys2Proof.Machine.execDey s
  | .andImm value => Sys2Proof.Machine.execAndImm value s
  | .andZp base => Sys2Proof.Machine.execAndZp base s
  | .andZpX base => Sys2Proof.Machine.execAndZpX base s
  | .andAbs addr => Sys2Proof.Machine.execAndAbs addr s
  | .andAbsX base => Sys2Proof.Machine.execAndAbsX base s
  | .andAbsY base => Sys2Proof.Machine.execAndAbsY base s
  | .andIndX ptr => Sys2Proof.Machine.execAndIndX ptr s
  | .andIndY ptr => Sys2Proof.Machine.execAndIndY ptr s
  | .oraImm value => Sys2Proof.Machine.execOraImm value s
  | .oraZp base => Sys2Proof.Machine.execOraZp base s
  | .oraZpX base => Sys2Proof.Machine.execOraZpX base s
  | .oraAbs addr => Sys2Proof.Machine.execOraAbs addr s
  | .oraAbsX base => Sys2Proof.Machine.execOraAbsX base s
  | .oraAbsY base => Sys2Proof.Machine.execOraAbsY base s
  | .oraIndX ptr => Sys2Proof.Machine.execOraIndX ptr s
  | .oraIndY ptr => Sys2Proof.Machine.execOraIndY ptr s
  | .eorImm value => Sys2Proof.Machine.execEorImm value s
  | .eorZp base => Sys2Proof.Machine.execEorZp base s
  | .eorZpX base => Sys2Proof.Machine.execEorZpX base s
  | .eorAbs addr => Sys2Proof.Machine.execEorAbs addr s
  | .eorAbsX base => Sys2Proof.Machine.execEorAbsX base s
  | .eorAbsY base => Sys2Proof.Machine.execEorAbsY base s
  | .eorIndX ptr => Sys2Proof.Machine.execEorIndX ptr s
  | .eorIndY ptr => Sys2Proof.Machine.execEorIndY ptr s
  | .bitZp base => Sys2Proof.Machine.execBitZp base s
  | .bitAbs addr => Sys2Proof.Machine.execBitAbs addr s
  | .aslAcc => Sys2Proof.Machine.execAslAcc s
  | .aslZp base => Sys2Proof.Machine.execAslZp base s
  | .aslZpX base => Sys2Proof.Machine.execAslZpX base s
  | .aslAbs addr => Sys2Proof.Machine.execAslAbs addr s
  | .aslAbsX base => Sys2Proof.Machine.execAslAbsX base s
  | .lsrAcc => Sys2Proof.Machine.execLsrAcc s
  | .lsrZp base => Sys2Proof.Machine.execLsrZp base s
  | .lsrZpX base => Sys2Proof.Machine.execLsrZpX base s
  | .lsrAbs addr => Sys2Proof.Machine.execLsrAbs addr s
  | .lsrAbsX base => Sys2Proof.Machine.execLsrAbsX base s
  | .rolAcc => Sys2Proof.Machine.execRolAcc s
  | .rolZp base => Sys2Proof.Machine.execRolZp base s
  | .rolZpX base => Sys2Proof.Machine.execRolZpX base s
  | .rolAbs addr => Sys2Proof.Machine.execRolAbs addr s
  | .rolAbsX base => Sys2Proof.Machine.execRolAbsX base s
  | .rorAcc => Sys2Proof.Machine.execRorAcc s
  | .rorZp base => Sys2Proof.Machine.execRorZp base s
  | .rorZpX base => Sys2Proof.Machine.execRorZpX base s
  | .rorAbs addr => Sys2Proof.Machine.execRorAbs addr s
  | .rorAbsX base => Sys2Proof.Machine.execRorAbsX base s
  | .bcc offset => Sys2Proof.Machine.execBcc offset s
  | .bcs offset => Sys2Proof.Machine.execBcs offset s
  | .beq offset => Sys2Proof.Machine.execBeq offset s
  | .bne offset => Sys2Proof.Machine.execBne offset s
  | .bpl offset => Sys2Proof.Machine.execBpl offset s
  | .bmi offset => Sys2Proof.Machine.execBmi offset s
  | .bvc offset => Sys2Proof.Machine.execBvc offset s
  | .bvs offset => Sys2Proof.Machine.execBvs offset s
  | .jmpAbs target => Sys2Proof.Machine.execJmpAbs target s
  | .jmpInd ptr => Sys2Proof.Machine.execJmpInd ptr s
  | .jsr target => Sys2Proof.Machine.execJsr target s
  | .rts => Sys2Proof.Machine.execRts s
  | .rti => Sys2Proof.Machine.execRti s
  | .pha => Sys2Proof.Machine.execPha s
  | .pla => Sys2Proof.Machine.execPla s
  | .php => Sys2Proof.Machine.execPhp s
  | .plp => Sys2Proof.Machine.execPlp s
  | .brk => Sys2Proof.Machine.execBrk s
  | .nop => Sys2Proof.Machine.execNop s
  | .ldaImm value => Sys2Proof.Machine.execLdaImm value s
  | .ldaZp base => Sys2Proof.Machine.execLdaZp base s
  | .ldaZpX base => Sys2Proof.Machine.execLdaZpX base s
  | .ldaAbs addr => Sys2Proof.Machine.execLdaAbs addr s
  | .ldaAbsX base => Sys2Proof.Machine.execLdaAbsX base s
  | .ldaAbsY base => Sys2Proof.Machine.execLdaAbsY base s
  | .ldaIndX ptr => Sys2Proof.Machine.execLdaIndX ptr s
  | .ldaIndY ptr => Sys2Proof.Machine.execLdaIndY ptr s
  | .ldxImm value => Sys2Proof.Machine.execLdxImm value s
  | .ldxZp base => Sys2Proof.Machine.execLdxZp base s
  | .ldxZpY base => Sys2Proof.Machine.execLdxZpY base s
  | .ldxAbs addr => Sys2Proof.Machine.execLdxAbs addr s
  | .ldxAbsY base => Sys2Proof.Machine.execLdxAbsY base s
  | .ldyImm value => Sys2Proof.Machine.execLdyImm value s
  | .ldyZp base => Sys2Proof.Machine.execLdyZp base s
  | .ldyZpX base => Sys2Proof.Machine.execLdyZpX base s
  | .ldyAbs addr => Sys2Proof.Machine.execLdyAbs addr s
  | .ldyAbsX base => Sys2Proof.Machine.execLdyAbsX base s
  | .staZp base => Sys2Proof.Machine.execStaZp base s
  | .staZpX base => Sys2Proof.Machine.execStaZpX base s
  | .staAbs addr => Sys2Proof.Machine.execStaAbs addr s
  | .staAbsX base => Sys2Proof.Machine.execStaAbsX base s
  | .staAbsY base => Sys2Proof.Machine.execStaAbsY base s
  | .staIndX ptr => Sys2Proof.Machine.execStaIndX ptr s
  | .staIndY ptr => Sys2Proof.Machine.execStaIndY ptr s
  | .stxZp base => Sys2Proof.Machine.execStxZp base s
  | .stxZpY base => Sys2Proof.Machine.execStxZpY base s
  | .stxAbs addr => Sys2Proof.Machine.execStxAbs addr s
  | .styZp base => Sys2Proof.Machine.execStyZp base s
  | .styZpX base => Sys2Proof.Machine.execStyZpX base s
  | .styAbs addr => Sys2Proof.Machine.execStyAbs addr s
  | .tax => Sys2Proof.Machine.execTax s
  | .tay => Sys2Proof.Machine.execTay s
  | .txa => Sys2Proof.Machine.execTxa s
  | .tya => Sys2Proof.Machine.execTya s
  | .tsx => Sys2Proof.Machine.execTsx s
  | .txs => Sys2Proof.Machine.execTxs s
  | .clc => Sys2Proof.Machine.execClc s
  | .sec => Sys2Proof.Machine.execSec s
  | .cli => Sys2Proof.Machine.execCli s
  | .sei => Sys2Proof.Machine.execSei s
  | .cld => Sys2Proof.Machine.execCld s
  | .sed => Sys2Proof.Machine.execSed s
  | .clv => Sys2Proof.Machine.execClv s

end Sys2Proof.Machine
end

