-- ==== Sys2Proof/Machine/Scheduler.lean ====
section
/-! DEFINITION. The scheduler's part of a step (R123), the breakpoint check after it (R330), the throttle (R362), and what the
host does between steps (R316, R364). Step.lean only calls these. -/

namespace Sys2Proof.Machine

/-! ## Fetch -/

/-- The byte at PC and the two after it; PC wraps (R25, R101). Reads have no side effect (R62), so reading past a shorter
instruction is unobservable. -/
def State.fetchBytes (s : State) : List Byte :=
  [s.readByte s.pc, s.readByte (s.pc + 1), s.readByte (s.pc + 2)]

/-- The instruction at PC; `none` is an undefined opcode (R119). -/
def State.fetchInstr (s : State) : Option Instr :=
  decodeInstr (s.readByte s.pc) (s.readByte (s.pc + 1)) (s.readByte (s.pc + 2))

/-! ## The step's bookkeeping -/

/-- `backupPC <- PC` (R43, R123). -/
def State.snapshotPC (s : State) : State := { s with backupPC := s.pc }

/-- Advance PC by the length unless the signal was raised, then clear the signal (R26, R40, R123). -/
def State.advancePC (s : State) (len : Nat) : State :=
  { s with pc := if s.suppress then s.pc else s.pc + BitVec.ofNat 16 len, suppress := false }

/-- `if halted: run <- halted` (R123). -/
def State.settleHalt (s : State) : State := if s.halted then { s with run := .halted } else s

/-- Does the configured breakpoint trigger after an executed step (R329, R330)? -/
def State.breakpointHit (s : State) : Bool :=
  match s.cfg.breakMode with
  | .off => false
  | .byAddress target => decide (s.backupPC = target)
  | .byCount target => decide (s.count = target)
  | .trapped => decide (s.pc = s.backupPC)
  | .singleStep => true

/-- Breakpoint evaluation "runs after each step"; a hit pauses the scheduler (R330, R331). -/
def State.checkBreakpoint (s : State) : State := if s.breakpointHit then { s with paused := true } else s

/-- The end of an executed step after the instruction's semantics, in the order of R123, then the breakpoint check. -/
def State.completeStep (s : State) (len : Nat) : State :=
  (s.advancePC len).countStep.writeEntropy.settleHalt.checkBreakpoint

/-- The step at an undefined opcode. Under `halt` it is not an executed step, so no breakpoint is evaluated (R331). -/
def State.undefinedStep (s : State) : State :=
  match s.cfg.undefPolicy with
  | .halt => s.undefinedOpcode
  | .nop => s.undefinedOpcode.checkBreakpoint

/-! ## When a step is enabled -/

/-- Is the per-interval cap not yet reached (R362)? -/
def State.belowCap (s : State) : Bool :=
  match s.cfg.throttle with
  | .off => true
  | .cap limit => decide (s.intervalCount < limit)
  | .rate _ => true

/-- A step is enabled exactly in running, unless the throttle or a pause withholds it (R316). -/
def State.canStep (s : State) : Bool := decide (s.run = .running) && !s.paused && s.belowCap

/-! ## Host actions between steps -/

/-- The reset operation (R354): registers, signals, run state and counters return to their reset values, memory stays. -/
def State.hostReset (s : State) : State :=
  { s with
    a := s.cfg.initA
    x := s.cfg.initX
    y := s.cfg.initY
    sp := s.cfg.initSP
    pc := s.cfg.loadOrigin
    p := s.cfg.initP
    halted := false
    suppress := false
    run := .idle
    count := 0
    intervalCount := 0 }

/-- A host action in a run that is not stopped. A tick is the scheduler's and is not handled here. -/
def State.actOn (s : State) : HostEvent → State
  | .tick => s
  | .key code => s.writeByte s.cfg.keyAddr code
  | .intervalStart => { s with intervalCount := 0 }
  | .render => s
  | .quit => { s with run := .stopped }
  | .reset => s.hostReset
  | .resume => { s with paused := false }
  | .resumeFromBreakpoint => { s with paused := false }
  | .coredump _ => s

/-- A host action: `stopped` is terminal, so nothing acts there (R316, R318, log 15). -/
def State.hostAct (s : State) (e : HostEvent) : State :=
  match s.run with
  | .stopped => s
  | .idle => s.actOn e
  | .running => s.actOn e
  | .halted => s.actOn e

/-! ## Creation and load -/

/-- Copy bytes to rising addresses; bytes beyond the image boundary are dropped (R351). -/
def State.loadAt (s : State) : Nat → List Byte → State
  | _, [] => s
  | addr, b :: rest => if addr < 65536 then (s.writeByte (BitVec.ofNat 16 addr) b).loadAt (addr + 1) rest else s

/-- Program load at `LOAD_ORIGIN` (R351). -/
def State.loadProgram (s : State) (image : List Byte) : State := s.loadAt s.cfg.loadOrigin.toNat image

/-- A simulator instance with a loaded program (R350). -/
def State.create (cfg : Config) (image : List Byte) : State := (State.initial cfg).loadProgram image

end Sys2Proof.Machine
end

