-- ==== Sys2Proof/Machine/Step.lean ====
section
/-! DEFINITION. One move of the machine: a host action, or the scheduler's tick, which runs at most one instruction (R123,
R316). -/

namespace Sys2Proof.Machine

/-- One step of R123: fetch, decode, execute, complete; an empty slot applies the undefined-opcode policy (R311). -/
def runInstruction (s : State) : Host.Outcome State Fault Refusal :=
  match s.fetchInstr with
  | none => .next s.snapshotPC.undefinedStep
  | some i =>
    match exec i s.snapshotPC with
    | .next t => .next (t.completeStep i.length)
    | .fault r => .fault r
    | .refused r => .refused r

/-- A scheduler tick. In idle the start delay elapses (R317, log 12). In running at most one instruction runs. In halted,
stopped, a pause or a spent interval "stepping is skipped" (R315, R318, R331, R362, log 13). -/
def schedulerTick (s : State) : Host.Outcome State Fault Refusal :=
  match s.run with
  | .idle => .next { s with run := .running }
  | .running => if s.canStep then runInstruction s else .next s
  | .halted => .next s
  | .stopped => .next s

/-- The machine's move: what the host has pending, oldest first, and otherwise the scheduler's tick (R322, R364, log 11). -/
def step (s : State) : Host.Outcome State Fault Refusal :=
  match s.pending with
  | [] => schedulerTick s
  | .tick :: rest => schedulerTick { s with pending := rest }
  | e :: rest => .next ({ s with pending := rest }.hostAct e)

/-- `s` with the instruction of an opcode-table word at PC, running and not withheld, so that the next step runs it (log 12). -/
def State.withFetchWord (s : State) (nbits w : Nat) : State :=
  { ((s.writeByte s.pc (tableByte nbits w 0)).writeByte (s.pc + 1) (tableByte nbits w 1)).writeByte
      (s.pc + 2) (tableByte nbits w 2) with
    run := .running
    halted := false
    paused := false
    intervalCount := 0
    pending := [] }

end Sys2Proof.Machine
end

