-- ==== Sys2Proof/Laws/PerInstr.lean ====
section
/-! SUPPORT. The statement about every instruction as syntax, one lemma per constructor: it is well formed, and it is encoded
in as many bytes as its addressing mode is long, its opcode first (R100, R103, R122). -/

namespace Sys2Proof.Laws.EncodedForm

/-- The encoded form of an instruction. -/
def Statement (i : Instr) : Prop :=
  i.wellFormed = true ∧ (encode i).length = i.length ∧ (encode i).head? = some i.opcode

theorem adcImm (value : Byte) : Statement (.adcImm value) := ⟨rfl, rfl, rfl⟩
theorem adcZp (base : Byte) : Statement (.adcZp base) := ⟨rfl, rfl, rfl⟩
theorem adcZpX (base : Byte) : Statement (.adcZpX base) := ⟨rfl, rfl, rfl⟩
theorem adcAbs (addr : Word) : Statement (.adcAbs addr) := ⟨rfl, rfl, rfl⟩
theorem adcAbsX (base : Word) : Statement (.adcAbsX base) := ⟨rfl, rfl, rfl⟩
theorem adcAbsY (base : Word) : Statement (.adcAbsY base) := ⟨rfl, rfl, rfl⟩
theorem adcIndX (ptr : Byte) : Statement (.adcIndX ptr) := ⟨rfl, rfl, rfl⟩
theorem adcIndY (ptr : Byte) : Statement (.adcIndY ptr) := ⟨rfl, rfl, rfl⟩
theorem sbcImm (value : Byte) : Statement (.sbcImm value) := ⟨rfl, rfl, rfl⟩
theorem sbcZp (base : Byte) : Statement (.sbcZp base) := ⟨rfl, rfl, rfl⟩
theorem sbcZpX (base : Byte) : Statement (.sbcZpX base) := ⟨rfl, rfl, rfl⟩
theorem sbcAbs (addr : Word) : Statement (.sbcAbs addr) := ⟨rfl, rfl, rfl⟩
theorem sbcAbsX (base : Word) : Statement (.sbcAbsX base) := ⟨rfl, rfl, rfl⟩
theorem sbcAbsY (base : Word) : Statement (.sbcAbsY base) := ⟨rfl, rfl, rfl⟩
theorem sbcIndX (ptr : Byte) : Statement (.sbcIndX ptr) := ⟨rfl, rfl, rfl⟩
theorem sbcIndY (ptr : Byte) : Statement (.sbcIndY ptr) := ⟨rfl, rfl, rfl⟩
theorem cmpImm (value : Byte) : Statement (.cmpImm value) := ⟨rfl, rfl, rfl⟩
theorem cmpZp (base : Byte) : Statement (.cmpZp base) := ⟨rfl, rfl, rfl⟩
theorem cmpZpX (base : Byte) : Statement (.cmpZpX base) := ⟨rfl, rfl, rfl⟩
theorem cmpAbs (addr : Word) : Statement (.cmpAbs addr) := ⟨rfl, rfl, rfl⟩
theorem cmpAbsX (base : Word) : Statement (.cmpAbsX base) := ⟨rfl, rfl, rfl⟩
theorem cmpAbsY (base : Word) : Statement (.cmpAbsY base) := ⟨rfl, rfl, rfl⟩
theorem cmpIndX (ptr : Byte) : Statement (.cmpIndX ptr) := ⟨rfl, rfl, rfl⟩
theorem cmpIndY (ptr : Byte) : Statement (.cmpIndY ptr) := ⟨rfl, rfl, rfl⟩
theorem cpxImm (value : Byte) : Statement (.cpxImm value) := ⟨rfl, rfl, rfl⟩
theorem cpxZp (base : Byte) : Statement (.cpxZp base) := ⟨rfl, rfl, rfl⟩
theorem cpxAbs (addr : Word) : Statement (.cpxAbs addr) := ⟨rfl, rfl, rfl⟩
theorem cpyImm (value : Byte) : Statement (.cpyImm value) := ⟨rfl, rfl, rfl⟩
theorem cpyZp (base : Byte) : Statement (.cpyZp base) := ⟨rfl, rfl, rfl⟩
theorem cpyAbs (addr : Word) : Statement (.cpyAbs addr) := ⟨rfl, rfl, rfl⟩
theorem incZp (base : Byte) : Statement (.incZp base) := ⟨rfl, rfl, rfl⟩
theorem incZpX (base : Byte) : Statement (.incZpX base) := ⟨rfl, rfl, rfl⟩
theorem incAbs (addr : Word) : Statement (.incAbs addr) := ⟨rfl, rfl, rfl⟩
theorem incAbsX (base : Word) : Statement (.incAbsX base) := ⟨rfl, rfl, rfl⟩
theorem decZp (base : Byte) : Statement (.decZp base) := ⟨rfl, rfl, rfl⟩
theorem decZpX (base : Byte) : Statement (.decZpX base) := ⟨rfl, rfl, rfl⟩
theorem decAbs (addr : Word) : Statement (.decAbs addr) := ⟨rfl, rfl, rfl⟩
theorem decAbsX (base : Word) : Statement (.decAbsX base) := ⟨rfl, rfl, rfl⟩
theorem inx : Statement (.inx) := ⟨rfl, rfl, rfl⟩
theorem iny : Statement (.iny) := ⟨rfl, rfl, rfl⟩
theorem dex : Statement (.dex) := ⟨rfl, rfl, rfl⟩
theorem dey : Statement (.dey) := ⟨rfl, rfl, rfl⟩
theorem andImm (value : Byte) : Statement (.andImm value) := ⟨rfl, rfl, rfl⟩
theorem andZp (base : Byte) : Statement (.andZp base) := ⟨rfl, rfl, rfl⟩
theorem andZpX (base : Byte) : Statement (.andZpX base) := ⟨rfl, rfl, rfl⟩
theorem andAbs (addr : Word) : Statement (.andAbs addr) := ⟨rfl, rfl, rfl⟩
theorem andAbsX (base : Word) : Statement (.andAbsX base) := ⟨rfl, rfl, rfl⟩
theorem andAbsY (base : Word) : Statement (.andAbsY base) := ⟨rfl, rfl, rfl⟩
theorem andIndX (ptr : Byte) : Statement (.andIndX ptr) := ⟨rfl, rfl, rfl⟩
theorem andIndY (ptr : Byte) : Statement (.andIndY ptr) := ⟨rfl, rfl, rfl⟩
theorem oraImm (value : Byte) : Statement (.oraImm value) := ⟨rfl, rfl, rfl⟩
theorem oraZp (base : Byte) : Statement (.oraZp base) := ⟨rfl, rfl, rfl⟩
theorem oraZpX (base : Byte) : Statement (.oraZpX base) := ⟨rfl, rfl, rfl⟩
theorem oraAbs (addr : Word) : Statement (.oraAbs addr) := ⟨rfl, rfl, rfl⟩
theorem oraAbsX (base : Word) : Statement (.oraAbsX base) := ⟨rfl, rfl, rfl⟩
theorem oraAbsY (base : Word) : Statement (.oraAbsY base) := ⟨rfl, rfl, rfl⟩
theorem oraIndX (ptr : Byte) : Statement (.oraIndX ptr) := ⟨rfl, rfl, rfl⟩
theorem oraIndY (ptr : Byte) : Statement (.oraIndY ptr) := ⟨rfl, rfl, rfl⟩
theorem eorImm (value : Byte) : Statement (.eorImm value) := ⟨rfl, rfl, rfl⟩
theorem eorZp (base : Byte) : Statement (.eorZp base) := ⟨rfl, rfl, rfl⟩
theorem eorZpX (base : Byte) : Statement (.eorZpX base) := ⟨rfl, rfl, rfl⟩
theorem eorAbs (addr : Word) : Statement (.eorAbs addr) := ⟨rfl, rfl, rfl⟩
theorem eorAbsX (base : Word) : Statement (.eorAbsX base) := ⟨rfl, rfl, rfl⟩
theorem eorAbsY (base : Word) : Statement (.eorAbsY base) := ⟨rfl, rfl, rfl⟩
theorem eorIndX (ptr : Byte) : Statement (.eorIndX ptr) := ⟨rfl, rfl, rfl⟩
theorem eorIndY (ptr : Byte) : Statement (.eorIndY ptr) := ⟨rfl, rfl, rfl⟩
theorem bitZp (base : Byte) : Statement (.bitZp base) := ⟨rfl, rfl, rfl⟩
theorem bitAbs (addr : Word) : Statement (.bitAbs addr) := ⟨rfl, rfl, rfl⟩
theorem aslAcc : Statement (.aslAcc) := ⟨rfl, rfl, rfl⟩
theorem aslZp (base : Byte) : Statement (.aslZp base) := ⟨rfl, rfl, rfl⟩
theorem aslZpX (base : Byte) : Statement (.aslZpX base) := ⟨rfl, rfl, rfl⟩
theorem aslAbs (addr : Word) : Statement (.aslAbs addr) := ⟨rfl, rfl, rfl⟩
theorem aslAbsX (base : Word) : Statement (.aslAbsX base) := ⟨rfl, rfl, rfl⟩
theorem lsrAcc : Statement (.lsrAcc) := ⟨rfl, rfl, rfl⟩
theorem lsrZp (base : Byte) : Statement (.lsrZp base) := ⟨rfl, rfl, rfl⟩
theorem lsrZpX (base : Byte) : Statement (.lsrZpX base) := ⟨rfl, rfl, rfl⟩
theorem lsrAbs (addr : Word) : Statement (.lsrAbs addr) := ⟨rfl, rfl, rfl⟩
theorem lsrAbsX (base : Word) : Statement (.lsrAbsX base) := ⟨rfl, rfl, rfl⟩
theorem rolAcc : Statement (.rolAcc) := ⟨rfl, rfl, rfl⟩
theorem rolZp (base : Byte) : Statement (.rolZp base) := ⟨rfl, rfl, rfl⟩
theorem rolZpX (base : Byte) : Statement (.rolZpX base) := ⟨rfl, rfl, rfl⟩
theorem rolAbs (addr : Word) : Statement (.rolAbs addr) := ⟨rfl, rfl, rfl⟩
theorem rolAbsX (base : Word) : Statement (.rolAbsX base) := ⟨rfl, rfl, rfl⟩
theorem rorAcc : Statement (.rorAcc) := ⟨rfl, rfl, rfl⟩
theorem rorZp (base : Byte) : Statement (.rorZp base) := ⟨rfl, rfl, rfl⟩
theorem rorZpX (base : Byte) : Statement (.rorZpX base) := ⟨rfl, rfl, rfl⟩
theorem rorAbs (addr : Word) : Statement (.rorAbs addr) := ⟨rfl, rfl, rfl⟩
theorem rorAbsX (base : Word) : Statement (.rorAbsX base) := ⟨rfl, rfl, rfl⟩
theorem bcc (offset : Byte) : Statement (.bcc offset) := ⟨rfl, rfl, rfl⟩
theorem bcs (offset : Byte) : Statement (.bcs offset) := ⟨rfl, rfl, rfl⟩
theorem beq (offset : Byte) : Statement (.beq offset) := ⟨rfl, rfl, rfl⟩
theorem bne (offset : Byte) : Statement (.bne offset) := ⟨rfl, rfl, rfl⟩
theorem bpl (offset : Byte) : Statement (.bpl offset) := ⟨rfl, rfl, rfl⟩
theorem bmi (offset : Byte) : Statement (.bmi offset) := ⟨rfl, rfl, rfl⟩
theorem bvc (offset : Byte) : Statement (.bvc offset) := ⟨rfl, rfl, rfl⟩
theorem bvs (offset : Byte) : Statement (.bvs offset) := ⟨rfl, rfl, rfl⟩
theorem jmpAbs (target : Word) : Statement (.jmpAbs target) := ⟨rfl, rfl, rfl⟩
theorem jmpInd (ptr : Word) : Statement (.jmpInd ptr) := ⟨rfl, rfl, rfl⟩
theorem jsr (target : Word) : Statement (.jsr target) := ⟨rfl, rfl, rfl⟩
theorem rts : Statement (.rts) := ⟨rfl, rfl, rfl⟩
theorem rti : Statement (.rti) := ⟨rfl, rfl, rfl⟩
theorem pha : Statement (.pha) := ⟨rfl, rfl, rfl⟩
theorem pla : Statement (.pla) := ⟨rfl, rfl, rfl⟩
theorem php : Statement (.php) := ⟨rfl, rfl, rfl⟩
theorem plp : Statement (.plp) := ⟨rfl, rfl, rfl⟩
theorem brk : Statement (.brk) := ⟨rfl, rfl, rfl⟩
theorem nop : Statement (.nop) := ⟨rfl, rfl, rfl⟩
theorem ldaImm (value : Byte) : Statement (.ldaImm value) := ⟨rfl, rfl, rfl⟩
theorem ldaZp (base : Byte) : Statement (.ldaZp base) := ⟨rfl, rfl, rfl⟩
theorem ldaZpX (base : Byte) : Statement (.ldaZpX base) := ⟨rfl, rfl, rfl⟩
theorem ldaAbs (addr : Word) : Statement (.ldaAbs addr) := ⟨rfl, rfl, rfl⟩
theorem ldaAbsX (base : Word) : Statement (.ldaAbsX base) := ⟨rfl, rfl, rfl⟩
theorem ldaAbsY (base : Word) : Statement (.ldaAbsY base) := ⟨rfl, rfl, rfl⟩
theorem ldaIndX (ptr : Byte) : Statement (.ldaIndX ptr) := ⟨rfl, rfl, rfl⟩
theorem ldaIndY (ptr : Byte) : Statement (.ldaIndY ptr) := ⟨rfl, rfl, rfl⟩
theorem ldxImm (value : Byte) : Statement (.ldxImm value) := ⟨rfl, rfl, rfl⟩
theorem ldxZp (base : Byte) : Statement (.ldxZp base) := ⟨rfl, rfl, rfl⟩
theorem ldxZpY (base : Byte) : Statement (.ldxZpY base) := ⟨rfl, rfl, rfl⟩
theorem ldxAbs (addr : Word) : Statement (.ldxAbs addr) := ⟨rfl, rfl, rfl⟩
theorem ldxAbsY (base : Word) : Statement (.ldxAbsY base) := ⟨rfl, rfl, rfl⟩
theorem ldyImm (value : Byte) : Statement (.ldyImm value) := ⟨rfl, rfl, rfl⟩
theorem ldyZp (base : Byte) : Statement (.ldyZp base) := ⟨rfl, rfl, rfl⟩
theorem ldyZpX (base : Byte) : Statement (.ldyZpX base) := ⟨rfl, rfl, rfl⟩
theorem ldyAbs (addr : Word) : Statement (.ldyAbs addr) := ⟨rfl, rfl, rfl⟩
theorem ldyAbsX (base : Word) : Statement (.ldyAbsX base) := ⟨rfl, rfl, rfl⟩
theorem staZp (base : Byte) : Statement (.staZp base) := ⟨rfl, rfl, rfl⟩
theorem staZpX (base : Byte) : Statement (.staZpX base) := ⟨rfl, rfl, rfl⟩
theorem staAbs (addr : Word) : Statement (.staAbs addr) := ⟨rfl, rfl, rfl⟩
theorem staAbsX (base : Word) : Statement (.staAbsX base) := ⟨rfl, rfl, rfl⟩
theorem staAbsY (base : Word) : Statement (.staAbsY base) := ⟨rfl, rfl, rfl⟩
theorem staIndX (ptr : Byte) : Statement (.staIndX ptr) := ⟨rfl, rfl, rfl⟩
theorem staIndY (ptr : Byte) : Statement (.staIndY ptr) := ⟨rfl, rfl, rfl⟩
theorem stxZp (base : Byte) : Statement (.stxZp base) := ⟨rfl, rfl, rfl⟩
theorem stxZpY (base : Byte) : Statement (.stxZpY base) := ⟨rfl, rfl, rfl⟩
theorem stxAbs (addr : Word) : Statement (.stxAbs addr) := ⟨rfl, rfl, rfl⟩
theorem styZp (base : Byte) : Statement (.styZp base) := ⟨rfl, rfl, rfl⟩
theorem styZpX (base : Byte) : Statement (.styZpX base) := ⟨rfl, rfl, rfl⟩
theorem styAbs (addr : Word) : Statement (.styAbs addr) := ⟨rfl, rfl, rfl⟩
theorem tax : Statement (.tax) := ⟨rfl, rfl, rfl⟩
theorem tay : Statement (.tay) := ⟨rfl, rfl, rfl⟩
theorem txa : Statement (.txa) := ⟨rfl, rfl, rfl⟩
theorem tya : Statement (.tya) := ⟨rfl, rfl, rfl⟩
theorem tsx : Statement (.tsx) := ⟨rfl, rfl, rfl⟩
theorem txs : Statement (.txs) := ⟨rfl, rfl, rfl⟩
theorem clc : Statement (.clc) := ⟨rfl, rfl, rfl⟩
theorem sec : Statement (.sec) := ⟨rfl, rfl, rfl⟩
theorem cli : Statement (.cli) := ⟨rfl, rfl, rfl⟩
theorem sei : Statement (.sei) := ⟨rfl, rfl, rfl⟩
theorem cld : Statement (.cld) := ⟨rfl, rfl, rfl⟩
theorem sed : Statement (.sed) := ⟨rfl, rfl, rfl⟩
theorem clv : Statement (.clv) := ⟨rfl, rfl, rfl⟩

end Sys2Proof.Laws.EncodedForm
end

