-- ==== Sys2Proof/Laws/State.lean ====
section
/-! SUPPORT. One lemma per field per update of the state, so that no proof unfolds a record update. -/

namespace Sys2Proof.Machine.State

/-! ## Registers, the step outcome, the halted signal -/

@[simp] theorem setA_a (s : State) (v : Byte) : (s.setA v).a = v := rfl
@[simp] theorem setA_x (s : State) (v : Byte) : (s.setA v).x = s.x := rfl
@[simp] theorem setA_y (s : State) (v : Byte) : (s.setA v).y = s.y := rfl
@[simp] theorem setA_sp (s : State) (v : Byte) : (s.setA v).sp = s.sp := rfl
@[simp] theorem setA_pc (s : State) (v : Byte) : (s.setA v).pc = s.pc := rfl
@[simp] theorem setA_p (s : State) (v : Byte) : (s.setA v).p = s.p := rfl
@[simp] theorem setA_mem (s : State) (v : Byte) : (s.setA v).mem = s.mem := rfl
@[simp] theorem setA_entropy (s : State) (v : Byte) : (s.setA v).entropy = s.entropy := rfl
@[simp] theorem setA_halted (s : State) (v : Byte) : (s.setA v).halted = s.halted := rfl
@[simp] theorem setA_suppress (s : State) (v : Byte) : (s.setA v).suppress = s.suppress := rfl
@[simp] theorem setA_run (s : State) (v : Byte) : (s.setA v).run = s.run := rfl
@[simp] theorem setA_count (s : State) (v : Byte) : (s.setA v).count = s.count := rfl
@[simp] theorem setA_intervalCount (s : State) (v : Byte) : (s.setA v).intervalCount = s.intervalCount := rfl
@[simp] theorem setA_backupPC (s : State) (v : Byte) : (s.setA v).backupPC = s.backupPC := rfl
@[simp] theorem setA_paused (s : State) (v : Byte) : (s.setA v).paused = s.paused := rfl
@[simp] theorem setA_cfg (s : State) (v : Byte) : (s.setA v).cfg = s.cfg := rfl
@[simp] theorem setA_draws (s : State) (v : Byte) : (s.setA v).draws = s.draws := rfl
@[simp] theorem setA_pending (s : State) (v : Byte) : (s.setA v).pending = s.pending := rfl

@[simp] theorem setX_a (s : State) (v : Byte) : (s.setX v).a = s.a := rfl
@[simp] theorem setX_x (s : State) (v : Byte) : (s.setX v).x = v := rfl
@[simp] theorem setX_y (s : State) (v : Byte) : (s.setX v).y = s.y := rfl
@[simp] theorem setX_sp (s : State) (v : Byte) : (s.setX v).sp = s.sp := rfl
@[simp] theorem setX_pc (s : State) (v : Byte) : (s.setX v).pc = s.pc := rfl
@[simp] theorem setX_p (s : State) (v : Byte) : (s.setX v).p = s.p := rfl
@[simp] theorem setX_mem (s : State) (v : Byte) : (s.setX v).mem = s.mem := rfl
@[simp] theorem setX_entropy (s : State) (v : Byte) : (s.setX v).entropy = s.entropy := rfl
@[simp] theorem setX_halted (s : State) (v : Byte) : (s.setX v).halted = s.halted := rfl
@[simp] theorem setX_suppress (s : State) (v : Byte) : (s.setX v).suppress = s.suppress := rfl
@[simp] theorem setX_run (s : State) (v : Byte) : (s.setX v).run = s.run := rfl
@[simp] theorem setX_count (s : State) (v : Byte) : (s.setX v).count = s.count := rfl
@[simp] theorem setX_intervalCount (s : State) (v : Byte) : (s.setX v).intervalCount = s.intervalCount := rfl
@[simp] theorem setX_backupPC (s : State) (v : Byte) : (s.setX v).backupPC = s.backupPC := rfl
@[simp] theorem setX_paused (s : State) (v : Byte) : (s.setX v).paused = s.paused := rfl
@[simp] theorem setX_cfg (s : State) (v : Byte) : (s.setX v).cfg = s.cfg := rfl
@[simp] theorem setX_draws (s : State) (v : Byte) : (s.setX v).draws = s.draws := rfl
@[simp] theorem setX_pending (s : State) (v : Byte) : (s.setX v).pending = s.pending := rfl

@[simp] theorem setY_a (s : State) (v : Byte) : (s.setY v).a = s.a := rfl
@[simp] theorem setY_x (s : State) (v : Byte) : (s.setY v).x = s.x := rfl
@[simp] theorem setY_y (s : State) (v : Byte) : (s.setY v).y = v := rfl
@[simp] theorem setY_sp (s : State) (v : Byte) : (s.setY v).sp = s.sp := rfl
@[simp] theorem setY_pc (s : State) (v : Byte) : (s.setY v).pc = s.pc := rfl
@[simp] theorem setY_p (s : State) (v : Byte) : (s.setY v).p = s.p := rfl
@[simp] theorem setY_mem (s : State) (v : Byte) : (s.setY v).mem = s.mem := rfl
@[simp] theorem setY_entropy (s : State) (v : Byte) : (s.setY v).entropy = s.entropy := rfl
@[simp] theorem setY_halted (s : State) (v : Byte) : (s.setY v).halted = s.halted := rfl
@[simp] theorem setY_suppress (s : State) (v : Byte) : (s.setY v).suppress = s.suppress := rfl
@[simp] theorem setY_run (s : State) (v : Byte) : (s.setY v).run = s.run := rfl
@[simp] theorem setY_count (s : State) (v : Byte) : (s.setY v).count = s.count := rfl
@[simp] theorem setY_intervalCount (s : State) (v : Byte) : (s.setY v).intervalCount = s.intervalCount := rfl
@[simp] theorem setY_backupPC (s : State) (v : Byte) : (s.setY v).backupPC = s.backupPC := rfl
@[simp] theorem setY_paused (s : State) (v : Byte) : (s.setY v).paused = s.paused := rfl
@[simp] theorem setY_cfg (s : State) (v : Byte) : (s.setY v).cfg = s.cfg := rfl
@[simp] theorem setY_draws (s : State) (v : Byte) : (s.setY v).draws = s.draws := rfl
@[simp] theorem setY_pending (s : State) (v : Byte) : (s.setY v).pending = s.pending := rfl

@[simp] theorem setSp_a (s : State) (v : Byte) : (s.setSp v).a = s.a := rfl
@[simp] theorem setSp_x (s : State) (v : Byte) : (s.setSp v).x = s.x := rfl
@[simp] theorem setSp_y (s : State) (v : Byte) : (s.setSp v).y = s.y := rfl
@[simp] theorem setSp_sp (s : State) (v : Byte) : (s.setSp v).sp = v := rfl
@[simp] theorem setSp_pc (s : State) (v : Byte) : (s.setSp v).pc = s.pc := rfl
@[simp] theorem setSp_p (s : State) (v : Byte) : (s.setSp v).p = s.p := rfl
@[simp] theorem setSp_mem (s : State) (v : Byte) : (s.setSp v).mem = s.mem := rfl
@[simp] theorem setSp_entropy (s : State) (v : Byte) : (s.setSp v).entropy = s.entropy := rfl
@[simp] theorem setSp_halted (s : State) (v : Byte) : (s.setSp v).halted = s.halted := rfl
@[simp] theorem setSp_suppress (s : State) (v : Byte) : (s.setSp v).suppress = s.suppress := rfl
@[simp] theorem setSp_run (s : State) (v : Byte) : (s.setSp v).run = s.run := rfl
@[simp] theorem setSp_count (s : State) (v : Byte) : (s.setSp v).count = s.count := rfl
@[simp] theorem setSp_intervalCount (s : State) (v : Byte) : (s.setSp v).intervalCount = s.intervalCount := rfl
@[simp] theorem setSp_backupPC (s : State) (v : Byte) : (s.setSp v).backupPC = s.backupPC := rfl
@[simp] theorem setSp_paused (s : State) (v : Byte) : (s.setSp v).paused = s.paused := rfl
@[simp] theorem setSp_cfg (s : State) (v : Byte) : (s.setSp v).cfg = s.cfg := rfl
@[simp] theorem setSp_draws (s : State) (v : Byte) : (s.setSp v).draws = s.draws := rfl
@[simp] theorem setSp_pending (s : State) (v : Byte) : (s.setSp v).pending = s.pending := rfl

@[simp] theorem setP_a (s : State) (v : Byte) : (s.setP v).a = s.a := rfl
@[simp] theorem setP_x (s : State) (v : Byte) : (s.setP v).x = s.x := rfl
@[simp] theorem setP_y (s : State) (v : Byte) : (s.setP v).y = s.y := rfl
@[simp] theorem setP_sp (s : State) (v : Byte) : (s.setP v).sp = s.sp := rfl
@[simp] theorem setP_pc (s : State) (v : Byte) : (s.setP v).pc = s.pc := rfl
@[simp] theorem setP_p (s : State) (v : Byte) : (s.setP v).p = v := rfl
@[simp] theorem setP_mem (s : State) (v : Byte) : (s.setP v).mem = s.mem := rfl
@[simp] theorem setP_entropy (s : State) (v : Byte) : (s.setP v).entropy = s.entropy := rfl
@[simp] theorem setP_halted (s : State) (v : Byte) : (s.setP v).halted = s.halted := rfl
@[simp] theorem setP_suppress (s : State) (v : Byte) : (s.setP v).suppress = s.suppress := rfl
@[simp] theorem setP_run (s : State) (v : Byte) : (s.setP v).run = s.run := rfl
@[simp] theorem setP_count (s : State) (v : Byte) : (s.setP v).count = s.count := rfl
@[simp] theorem setP_intervalCount (s : State) (v : Byte) : (s.setP v).intervalCount = s.intervalCount := rfl
@[simp] theorem setP_backupPC (s : State) (v : Byte) : (s.setP v).backupPC = s.backupPC := rfl
@[simp] theorem setP_paused (s : State) (v : Byte) : (s.setP v).paused = s.paused := rfl
@[simp] theorem setP_cfg (s : State) (v : Byte) : (s.setP v).cfg = s.cfg := rfl
@[simp] theorem setP_draws (s : State) (v : Byte) : (s.setP v).draws = s.draws := rfl
@[simp] theorem setP_pending (s : State) (v : Byte) : (s.setP v).pending = s.pending := rfl

@[simp] theorem advance_a (s : State) : (s.advance).a = s.a := rfl
@[simp] theorem advance_x (s : State) : (s.advance).x = s.x := rfl
@[simp] theorem advance_y (s : State) : (s.advance).y = s.y := rfl
@[simp] theorem advance_sp (s : State) : (s.advance).sp = s.sp := rfl
@[simp] theorem advance_pc (s : State) : (s.advance).pc = s.pc := rfl
@[simp] theorem advance_p (s : State) : (s.advance).p = s.p := rfl
@[simp] theorem advance_mem (s : State) : (s.advance).mem = s.mem := rfl
@[simp] theorem advance_entropy (s : State) : (s.advance).entropy = s.entropy := rfl
@[simp] theorem advance_halted (s : State) : (s.advance).halted = s.halted := rfl
@[simp] theorem advance_suppress (s : State) : (s.advance).suppress = false := rfl
@[simp] theorem advance_run (s : State) : (s.advance).run = s.run := rfl
@[simp] theorem advance_count (s : State) : (s.advance).count = s.count := rfl
@[simp] theorem advance_intervalCount (s : State) : (s.advance).intervalCount = s.intervalCount := rfl
@[simp] theorem advance_backupPC (s : State) : (s.advance).backupPC = s.backupPC := rfl
@[simp] theorem advance_paused (s : State) : (s.advance).paused = s.paused := rfl
@[simp] theorem advance_cfg (s : State) : (s.advance).cfg = s.cfg := rfl
@[simp] theorem advance_draws (s : State) : (s.advance).draws = s.draws := rfl
@[simp] theorem advance_pending (s : State) : (s.advance).pending = s.pending := rfl

@[simp] theorem jump_a (s : State) (t : Word) : (s.jump t).a = s.a := rfl
@[simp] theorem jump_x (s : State) (t : Word) : (s.jump t).x = s.x := rfl
@[simp] theorem jump_y (s : State) (t : Word) : (s.jump t).y = s.y := rfl
@[simp] theorem jump_sp (s : State) (t : Word) : (s.jump t).sp = s.sp := rfl
@[simp] theorem jump_pc (s : State) (t : Word) : (s.jump t).pc = t := rfl
@[simp] theorem jump_p (s : State) (t : Word) : (s.jump t).p = s.p := rfl
@[simp] theorem jump_mem (s : State) (t : Word) : (s.jump t).mem = s.mem := rfl
@[simp] theorem jump_entropy (s : State) (t : Word) : (s.jump t).entropy = s.entropy := rfl
@[simp] theorem jump_halted (s : State) (t : Word) : (s.jump t).halted = s.halted := rfl
@[simp] theorem jump_suppress (s : State) (t : Word) : (s.jump t).suppress = true := rfl
@[simp] theorem jump_run (s : State) (t : Word) : (s.jump t).run = s.run := rfl
@[simp] theorem jump_count (s : State) (t : Word) : (s.jump t).count = s.count := rfl
@[simp] theorem jump_intervalCount (s : State) (t : Word) : (s.jump t).intervalCount = s.intervalCount := rfl
@[simp] theorem jump_backupPC (s : State) (t : Word) : (s.jump t).backupPC = s.backupPC := rfl
@[simp] theorem jump_paused (s : State) (t : Word) : (s.jump t).paused = s.paused := rfl
@[simp] theorem jump_cfg (s : State) (t : Word) : (s.jump t).cfg = s.cfg := rfl
@[simp] theorem jump_draws (s : State) (t : Word) : (s.jump t).draws = s.draws := rfl
@[simp] theorem jump_pending (s : State) (t : Word) : (s.jump t).pending = s.pending := rfl

@[simp] theorem halt_a (s : State) : (s.halt).a = s.a := rfl
@[simp] theorem halt_x (s : State) : (s.halt).x = s.x := rfl
@[simp] theorem halt_y (s : State) : (s.halt).y = s.y := rfl
@[simp] theorem halt_sp (s : State) : (s.halt).sp = s.sp := rfl
@[simp] theorem halt_pc (s : State) : (s.halt).pc = s.pc := rfl
@[simp] theorem halt_p (s : State) : (s.halt).p = s.p := rfl
@[simp] theorem halt_mem (s : State) : (s.halt).mem = s.mem := rfl
@[simp] theorem halt_entropy (s : State) : (s.halt).entropy = s.entropy := rfl
@[simp] theorem halt_halted (s : State) : (s.halt).halted = true := rfl
@[simp] theorem halt_suppress (s : State) : (s.halt).suppress = s.suppress := rfl
@[simp] theorem halt_run (s : State) : (s.halt).run = s.run := rfl
@[simp] theorem halt_count (s : State) : (s.halt).count = s.count := rfl
@[simp] theorem halt_intervalCount (s : State) : (s.halt).intervalCount = s.intervalCount := rfl
@[simp] theorem halt_backupPC (s : State) : (s.halt).backupPC = s.backupPC := rfl
@[simp] theorem halt_paused (s : State) : (s.halt).paused = s.paused := rfl
@[simp] theorem halt_cfg (s : State) : (s.halt).cfg = s.cfg := rfl
@[simp] theorem halt_draws (s : State) : (s.halt).draws = s.draws := rfl
@[simp] theorem halt_pending (s : State) : (s.halt).pending = s.pending := rfl

/-! ## Memory and the stack -/

@[simp] theorem writeByte_a (s : State) (addr : Word) (v : Byte) : (s.writeByte addr v).a = s.a := rfl
@[simp] theorem writeByte_x (s : State) (addr : Word) (v : Byte) : (s.writeByte addr v).x = s.x := rfl
@[simp] theorem writeByte_y (s : State) (addr : Word) (v : Byte) : (s.writeByte addr v).y = s.y := rfl
@[simp] theorem writeByte_sp (s : State) (addr : Word) (v : Byte) : (s.writeByte addr v).sp = s.sp := rfl
@[simp] theorem writeByte_pc (s : State) (addr : Word) (v : Byte) : (s.writeByte addr v).pc = s.pc := rfl
@[simp] theorem writeByte_p (s : State) (addr : Word) (v : Byte) : (s.writeByte addr v).p = s.p := rfl
@[simp] theorem writeByte_halted (s : State) (addr : Word) (v : Byte) : (s.writeByte addr v).halted = s.halted := rfl
@[simp] theorem writeByte_suppress (s : State) (addr : Word) (v : Byte) : (s.writeByte addr v).suppress = s.suppress := rfl
@[simp] theorem writeByte_run (s : State) (addr : Word) (v : Byte) : (s.writeByte addr v).run = s.run := rfl
@[simp] theorem writeByte_count (s : State) (addr : Word) (v : Byte) : (s.writeByte addr v).count = s.count := rfl
@[simp] theorem writeByte_intervalCount (s : State) (addr : Word) (v : Byte) : (s.writeByte addr v).intervalCount = s.intervalCount := rfl
@[simp] theorem writeByte_backupPC (s : State) (addr : Word) (v : Byte) : (s.writeByte addr v).backupPC = s.backupPC := rfl
@[simp] theorem writeByte_paused (s : State) (addr : Word) (v : Byte) : (s.writeByte addr v).paused = s.paused := rfl
@[simp] theorem writeByte_cfg (s : State) (addr : Word) (v : Byte) : (s.writeByte addr v).cfg = s.cfg := rfl
@[simp] theorem writeByte_draws (s : State) (addr : Word) (v : Byte) : (s.writeByte addr v).draws = s.draws := rfl
@[simp] theorem writeByte_pending (s : State) (addr : Word) (v : Byte) : (s.writeByte addr v).pending = s.pending := rfl

@[simp] theorem push_a (s : State) (v : Byte) : (s.push v).a = s.a := rfl
@[simp] theorem push_x (s : State) (v : Byte) : (s.push v).x = s.x := rfl
@[simp] theorem push_y (s : State) (v : Byte) : (s.push v).y = s.y := rfl
@[simp] theorem push_sp (s : State) (v : Byte) : (s.push v).sp = s.sp - 1 := rfl
@[simp] theorem push_pc (s : State) (v : Byte) : (s.push v).pc = s.pc := rfl
@[simp] theorem push_p (s : State) (v : Byte) : (s.push v).p = s.p := rfl
@[simp] theorem push_halted (s : State) (v : Byte) : (s.push v).halted = s.halted := rfl
@[simp] theorem push_suppress (s : State) (v : Byte) : (s.push v).suppress = s.suppress := rfl
@[simp] theorem push_run (s : State) (v : Byte) : (s.push v).run = s.run := rfl
@[simp] theorem push_count (s : State) (v : Byte) : (s.push v).count = s.count := rfl
@[simp] theorem push_intervalCount (s : State) (v : Byte) : (s.push v).intervalCount = s.intervalCount := rfl
@[simp] theorem push_backupPC (s : State) (v : Byte) : (s.push v).backupPC = s.backupPC := rfl
@[simp] theorem push_paused (s : State) (v : Byte) : (s.push v).paused = s.paused := rfl
@[simp] theorem push_cfg (s : State) (v : Byte) : (s.push v).cfg = s.cfg := rfl
@[simp] theorem push_draws (s : State) (v : Byte) : (s.push v).draws = s.draws := rfl
@[simp] theorem push_pending (s : State) (v : Byte) : (s.push v).pending = s.pending := rfl

@[simp] theorem pulled_a (s : State) : (s.pulled).a = s.a := rfl
@[simp] theorem pulled_x (s : State) : (s.pulled).x = s.x := rfl
@[simp] theorem pulled_y (s : State) : (s.pulled).y = s.y := rfl
@[simp] theorem pulled_sp (s : State) : (s.pulled).sp = s.sp + 1 := rfl
@[simp] theorem pulled_pc (s : State) : (s.pulled).pc = s.pc := rfl
@[simp] theorem pulled_p (s : State) : (s.pulled).p = s.p := rfl
@[simp] theorem pulled_mem (s : State) : (s.pulled).mem = s.mem := rfl
@[simp] theorem pulled_entropy (s : State) : (s.pulled).entropy = s.entropy := rfl
@[simp] theorem pulled_halted (s : State) : (s.pulled).halted = s.halted := rfl
@[simp] theorem pulled_suppress (s : State) : (s.pulled).suppress = s.suppress := rfl
@[simp] theorem pulled_run (s : State) : (s.pulled).run = s.run := rfl
@[simp] theorem pulled_count (s : State) : (s.pulled).count = s.count := rfl
@[simp] theorem pulled_intervalCount (s : State) : (s.pulled).intervalCount = s.intervalCount := rfl
@[simp] theorem pulled_backupPC (s : State) : (s.pulled).backupPC = s.backupPC := rfl
@[simp] theorem pulled_paused (s : State) : (s.pulled).paused = s.paused := rfl
@[simp] theorem pulled_cfg (s : State) : (s.pulled).cfg = s.cfg := rfl
@[simp] theorem pulled_draws (s : State) : (s.pulled).draws = s.draws := rfl
@[simp] theorem pulled_pending (s : State) : (s.pulled).pending = s.pending := rfl

@[simp] theorem writeTarget_x (s : State) (t : Target) (v : Byte) : (s.writeTarget t v).x = s.x := by cases t <;> rfl
@[simp] theorem writeTarget_y (s : State) (t : Target) (v : Byte) : (s.writeTarget t v).y = s.y := by cases t <;> rfl
@[simp] theorem writeTarget_sp (s : State) (t : Target) (v : Byte) : (s.writeTarget t v).sp = s.sp := by cases t <;> rfl
@[simp] theorem writeTarget_pc (s : State) (t : Target) (v : Byte) : (s.writeTarget t v).pc = s.pc := by cases t <;> rfl
@[simp] theorem writeTarget_p (s : State) (t : Target) (v : Byte) : (s.writeTarget t v).p = s.p := by cases t <;> rfl
@[simp] theorem writeTarget_halted (s : State) (t : Target) (v : Byte) : (s.writeTarget t v).halted = s.halted := by cases t <;> rfl
@[simp] theorem writeTarget_suppress (s : State) (t : Target) (v : Byte) : (s.writeTarget t v).suppress = s.suppress := by cases t <;> rfl
@[simp] theorem writeTarget_run (s : State) (t : Target) (v : Byte) : (s.writeTarget t v).run = s.run := by cases t <;> rfl
@[simp] theorem writeTarget_count (s : State) (t : Target) (v : Byte) : (s.writeTarget t v).count = s.count := by cases t <;> rfl
@[simp] theorem writeTarget_intervalCount (s : State) (t : Target) (v : Byte) : (s.writeTarget t v).intervalCount = s.intervalCount := by cases t <;> rfl
@[simp] theorem writeTarget_backupPC (s : State) (t : Target) (v : Byte) : (s.writeTarget t v).backupPC = s.backupPC := by cases t <;> rfl
@[simp] theorem writeTarget_paused (s : State) (t : Target) (v : Byte) : (s.writeTarget t v).paused = s.paused := by cases t <;> rfl
@[simp] theorem writeTarget_cfg (s : State) (t : Target) (v : Byte) : (s.writeTarget t v).cfg = s.cfg := by cases t <;> rfl
@[simp] theorem writeTarget_draws (s : State) (t : Target) (v : Byte) : (s.writeTarget t v).draws = s.draws := by cases t <;> rfl
@[simp] theorem writeTarget_pending (s : State) (t : Target) (v : Byte) : (s.writeTarget t v).pending = s.pending := by cases t <;> rfl

/-! ## Flags -/

@[simp] theorem setFlag_a (s : State) (f : Flag) (v : Bool) : (s.setFlag f v).a = s.a := rfl
@[simp] theorem setFlag_x (s : State) (f : Flag) (v : Bool) : (s.setFlag f v).x = s.x := rfl
@[simp] theorem setFlag_y (s : State) (f : Flag) (v : Bool) : (s.setFlag f v).y = s.y := rfl
@[simp] theorem setFlag_sp (s : State) (f : Flag) (v : Bool) : (s.setFlag f v).sp = s.sp := rfl
@[simp] theorem setFlag_pc (s : State) (f : Flag) (v : Bool) : (s.setFlag f v).pc = s.pc := rfl
@[simp] theorem setFlag_p (s : State) (f : Flag) (v : Bool) : (s.setFlag f v).p = withFlag s.p f v := rfl
@[simp] theorem setFlag_mem (s : State) (f : Flag) (v : Bool) : (s.setFlag f v).mem = s.mem := rfl
@[simp] theorem setFlag_entropy (s : State) (f : Flag) (v : Bool) : (s.setFlag f v).entropy = s.entropy := rfl
@[simp] theorem setFlag_halted (s : State) (f : Flag) (v : Bool) : (s.setFlag f v).halted = s.halted := rfl
@[simp] theorem setFlag_suppress (s : State) (f : Flag) (v : Bool) : (s.setFlag f v).suppress = s.suppress := rfl
@[simp] theorem setFlag_run (s : State) (f : Flag) (v : Bool) : (s.setFlag f v).run = s.run := rfl
@[simp] theorem setFlag_count (s : State) (f : Flag) (v : Bool) : (s.setFlag f v).count = s.count := rfl
@[simp] theorem setFlag_intervalCount (s : State) (f : Flag) (v : Bool) : (s.setFlag f v).intervalCount = s.intervalCount := rfl
@[simp] theorem setFlag_backupPC (s : State) (f : Flag) (v : Bool) : (s.setFlag f v).backupPC = s.backupPC := rfl
@[simp] theorem setFlag_paused (s : State) (f : Flag) (v : Bool) : (s.setFlag f v).paused = s.paused := rfl
@[simp] theorem setFlag_cfg (s : State) (f : Flag) (v : Bool) : (s.setFlag f v).cfg = s.cfg := rfl
@[simp] theorem setFlag_draws (s : State) (f : Flag) (v : Bool) : (s.setFlag f v).draws = s.draws := rfl
@[simp] theorem setFlag_pending (s : State) (f : Flag) (v : Bool) : (s.setFlag f v).pending = s.pending := rfl

@[simp] theorem setNZ_a (s : State) (v : Byte) : (s.setNZ v).a = s.a := rfl
@[simp] theorem setNZ_x (s : State) (v : Byte) : (s.setNZ v).x = s.x := rfl
@[simp] theorem setNZ_y (s : State) (v : Byte) : (s.setNZ v).y = s.y := rfl
@[simp] theorem setNZ_sp (s : State) (v : Byte) : (s.setNZ v).sp = s.sp := rfl
@[simp] theorem setNZ_pc (s : State) (v : Byte) : (s.setNZ v).pc = s.pc := rfl
@[simp] theorem setNZ_p (s : State) (v : Byte) : (s.setNZ v).p = withFlag (withFlag s.p .Z (v == 0)) .N (v.getLsbD 7) := rfl
@[simp] theorem setNZ_mem (s : State) (v : Byte) : (s.setNZ v).mem = s.mem := rfl
@[simp] theorem setNZ_entropy (s : State) (v : Byte) : (s.setNZ v).entropy = s.entropy := rfl
@[simp] theorem setNZ_halted (s : State) (v : Byte) : (s.setNZ v).halted = s.halted := rfl
@[simp] theorem setNZ_suppress (s : State) (v : Byte) : (s.setNZ v).suppress = s.suppress := rfl
@[simp] theorem setNZ_run (s : State) (v : Byte) : (s.setNZ v).run = s.run := rfl
@[simp] theorem setNZ_count (s : State) (v : Byte) : (s.setNZ v).count = s.count := rfl
@[simp] theorem setNZ_intervalCount (s : State) (v : Byte) : (s.setNZ v).intervalCount = s.intervalCount := rfl
@[simp] theorem setNZ_backupPC (s : State) (v : Byte) : (s.setNZ v).backupPC = s.backupPC := rfl
@[simp] theorem setNZ_paused (s : State) (v : Byte) : (s.setNZ v).paused = s.paused := rfl
@[simp] theorem setNZ_cfg (s : State) (v : Byte) : (s.setNZ v).cfg = s.cfg := rfl
@[simp] theorem setNZ_draws (s : State) (v : Byte) : (s.setNZ v).draws = s.draws := rfl
@[simp] theorem setNZ_pending (s : State) (v : Byte) : (s.setNZ v).pending = s.pending := rfl

@[simp] theorem setShift_a (s : State) (c : Bool) (r : Byte) : (s.setShift c r).a = s.a := rfl
@[simp] theorem setShift_x (s : State) (c : Bool) (r : Byte) : (s.setShift c r).x = s.x := rfl
@[simp] theorem setShift_y (s : State) (c : Bool) (r : Byte) : (s.setShift c r).y = s.y := rfl
@[simp] theorem setShift_sp (s : State) (c : Bool) (r : Byte) : (s.setShift c r).sp = s.sp := rfl
@[simp] theorem setShift_pc (s : State) (c : Bool) (r : Byte) : (s.setShift c r).pc = s.pc := rfl
@[simp] theorem setShift_p (s : State) (c : Bool) (r : Byte) : (s.setShift c r).p = ((s.setFlag .C c).setNZ r).p := rfl
@[simp] theorem setShift_mem (s : State) (c : Bool) (r : Byte) : (s.setShift c r).mem = s.mem := rfl
@[simp] theorem setShift_entropy (s : State) (c : Bool) (r : Byte) : (s.setShift c r).entropy = s.entropy := rfl
@[simp] theorem setShift_halted (s : State) (c : Bool) (r : Byte) : (s.setShift c r).halted = s.halted := rfl
@[simp] theorem setShift_suppress (s : State) (c : Bool) (r : Byte) : (s.setShift c r).suppress = s.suppress := rfl
@[simp] theorem setShift_run (s : State) (c : Bool) (r : Byte) : (s.setShift c r).run = s.run := rfl
@[simp] theorem setShift_count (s : State) (c : Bool) (r : Byte) : (s.setShift c r).count = s.count := rfl
@[simp] theorem setShift_intervalCount (s : State) (c : Bool) (r : Byte) : (s.setShift c r).intervalCount = s.intervalCount := rfl
@[simp] theorem setShift_backupPC (s : State) (c : Bool) (r : Byte) : (s.setShift c r).backupPC = s.backupPC := rfl
@[simp] theorem setShift_paused (s : State) (c : Bool) (r : Byte) : (s.setShift c r).paused = s.paused := rfl
@[simp] theorem setShift_cfg (s : State) (c : Bool) (r : Byte) : (s.setShift c r).cfg = s.cfg := rfl
@[simp] theorem setShift_draws (s : State) (c : Bool) (r : Byte) : (s.setShift c r).draws = s.draws := rfl
@[simp] theorem setShift_pending (s : State) (c : Bool) (r : Byte) : (s.setShift c r).pending = s.pending := rfl

@[simp] theorem setAlu_a (s : State) (out : AluResult) : (s.setAlu out).a = out.r := rfl
@[simp] theorem setAlu_x (s : State) (out : AluResult) : (s.setAlu out).x = s.x := rfl
@[simp] theorem setAlu_y (s : State) (out : AluResult) : (s.setAlu out).y = s.y := rfl
@[simp] theorem setAlu_sp (s : State) (out : AluResult) : (s.setAlu out).sp = s.sp := rfl
@[simp] theorem setAlu_pc (s : State) (out : AluResult) : (s.setAlu out).pc = s.pc := rfl
@[simp] theorem setAlu_p (s : State) (out : AluResult) : (s.setAlu out).p = (((s.setFlag .C out.carry).setFlag .V out.overflow).setNZ out.r).p := rfl
@[simp] theorem setAlu_mem (s : State) (out : AluResult) : (s.setAlu out).mem = s.mem := rfl
@[simp] theorem setAlu_entropy (s : State) (out : AluResult) : (s.setAlu out).entropy = s.entropy := rfl
@[simp] theorem setAlu_halted (s : State) (out : AluResult) : (s.setAlu out).halted = s.halted := rfl
@[simp] theorem setAlu_suppress (s : State) (out : AluResult) : (s.setAlu out).suppress = s.suppress := rfl
@[simp] theorem setAlu_run (s : State) (out : AluResult) : (s.setAlu out).run = s.run := rfl
@[simp] theorem setAlu_count (s : State) (out : AluResult) : (s.setAlu out).count = s.count := rfl
@[simp] theorem setAlu_intervalCount (s : State) (out : AluResult) : (s.setAlu out).intervalCount = s.intervalCount := rfl
@[simp] theorem setAlu_backupPC (s : State) (out : AluResult) : (s.setAlu out).backupPC = s.backupPC := rfl
@[simp] theorem setAlu_paused (s : State) (out : AluResult) : (s.setAlu out).paused = s.paused := rfl
@[simp] theorem setAlu_cfg (s : State) (out : AluResult) : (s.setAlu out).cfg = s.cfg := rfl
@[simp] theorem setAlu_draws (s : State) (out : AluResult) : (s.setAlu out).draws = s.draws := rfl
@[simp] theorem setAlu_pending (s : State) (out : AluResult) : (s.setAlu out).pending = s.pending := rfl

@[simp] theorem compare_a (s : State) (reg : Byte) (m : Byte) : (s.compare reg m).a = s.a := by unfold compare; (repeat' split) <;> rfl
@[simp] theorem compare_x (s : State) (reg : Byte) (m : Byte) : (s.compare reg m).x = s.x := by unfold compare; (repeat' split) <;> rfl
@[simp] theorem compare_y (s : State) (reg : Byte) (m : Byte) : (s.compare reg m).y = s.y := by unfold compare; (repeat' split) <;> rfl
@[simp] theorem compare_sp (s : State) (reg : Byte) (m : Byte) : (s.compare reg m).sp = s.sp := by unfold compare; (repeat' split) <;> rfl
@[simp] theorem compare_pc (s : State) (reg : Byte) (m : Byte) : (s.compare reg m).pc = s.pc := by unfold compare; (repeat' split) <;> rfl
@[simp] theorem compare_mem (s : State) (reg : Byte) (m : Byte) : (s.compare reg m).mem = s.mem := by unfold compare; (repeat' split) <;> rfl
@[simp] theorem compare_entropy (s : State) (reg : Byte) (m : Byte) : (s.compare reg m).entropy = s.entropy := by unfold compare; (repeat' split) <;> rfl
@[simp] theorem compare_halted (s : State) (reg : Byte) (m : Byte) : (s.compare reg m).halted = s.halted := by unfold compare; (repeat' split) <;> rfl
@[simp] theorem compare_suppress (s : State) (reg : Byte) (m : Byte) : (s.compare reg m).suppress = s.suppress := by unfold compare; (repeat' split) <;> rfl
@[simp] theorem compare_run (s : State) (reg : Byte) (m : Byte) : (s.compare reg m).run = s.run := by unfold compare; (repeat' split) <;> rfl
@[simp] theorem compare_count (s : State) (reg : Byte) (m : Byte) : (s.compare reg m).count = s.count := by unfold compare; (repeat' split) <;> rfl
@[simp] theorem compare_intervalCount (s : State) (reg : Byte) (m : Byte) : (s.compare reg m).intervalCount = s.intervalCount := by unfold compare; (repeat' split) <;> rfl
@[simp] theorem compare_backupPC (s : State) (reg : Byte) (m : Byte) : (s.compare reg m).backupPC = s.backupPC := by unfold compare; (repeat' split) <;> rfl
@[simp] theorem compare_paused (s : State) (reg : Byte) (m : Byte) : (s.compare reg m).paused = s.paused := by unfold compare; (repeat' split) <;> rfl
@[simp] theorem compare_cfg (s : State) (reg : Byte) (m : Byte) : (s.compare reg m).cfg = s.cfg := by unfold compare; (repeat' split) <;> rfl
@[simp] theorem compare_draws (s : State) (reg : Byte) (m : Byte) : (s.compare reg m).draws = s.draws := by unfold compare; (repeat' split) <;> rfl
@[simp] theorem compare_pending (s : State) (reg : Byte) (m : Byte) : (s.compare reg m).pending = s.pending := by unfold compare; (repeat' split) <;> rfl

/-! ## The end of a step -/

@[simp] theorem snapshotPC_a (s : State) : (s.snapshotPC).a = s.a := rfl
@[simp] theorem snapshotPC_x (s : State) : (s.snapshotPC).x = s.x := rfl
@[simp] theorem snapshotPC_y (s : State) : (s.snapshotPC).y = s.y := rfl
@[simp] theorem snapshotPC_sp (s : State) : (s.snapshotPC).sp = s.sp := rfl
@[simp] theorem snapshotPC_pc (s : State) : (s.snapshotPC).pc = s.pc := rfl
@[simp] theorem snapshotPC_p (s : State) : (s.snapshotPC).p = s.p := rfl
@[simp] theorem snapshotPC_mem (s : State) : (s.snapshotPC).mem = s.mem := rfl
@[simp] theorem snapshotPC_entropy (s : State) : (s.snapshotPC).entropy = s.entropy := rfl
@[simp] theorem snapshotPC_halted (s : State) : (s.snapshotPC).halted = s.halted := rfl
@[simp] theorem snapshotPC_suppress (s : State) : (s.snapshotPC).suppress = s.suppress := rfl
@[simp] theorem snapshotPC_run (s : State) : (s.snapshotPC).run = s.run := rfl
@[simp] theorem snapshotPC_count (s : State) : (s.snapshotPC).count = s.count := rfl
@[simp] theorem snapshotPC_intervalCount (s : State) : (s.snapshotPC).intervalCount = s.intervalCount := rfl
@[simp] theorem snapshotPC_backupPC (s : State) : (s.snapshotPC).backupPC = s.pc := rfl
@[simp] theorem snapshotPC_paused (s : State) : (s.snapshotPC).paused = s.paused := rfl
@[simp] theorem snapshotPC_cfg (s : State) : (s.snapshotPC).cfg = s.cfg := rfl
@[simp] theorem snapshotPC_draws (s : State) : (s.snapshotPC).draws = s.draws := rfl
@[simp] theorem snapshotPC_pending (s : State) : (s.snapshotPC).pending = s.pending := rfl

@[simp] theorem advancePC_a (s : State) (len : Nat) : (s.advancePC len).a = s.a := rfl
@[simp] theorem advancePC_x (s : State) (len : Nat) : (s.advancePC len).x = s.x := rfl
@[simp] theorem advancePC_y (s : State) (len : Nat) : (s.advancePC len).y = s.y := rfl
@[simp] theorem advancePC_sp (s : State) (len : Nat) : (s.advancePC len).sp = s.sp := rfl
@[simp] theorem advancePC_pc (s : State) (len : Nat) : (s.advancePC len).pc = if s.suppress then s.pc else s.pc + BitVec.ofNat 16 len := rfl
@[simp] theorem advancePC_p (s : State) (len : Nat) : (s.advancePC len).p = s.p := rfl
@[simp] theorem advancePC_mem (s : State) (len : Nat) : (s.advancePC len).mem = s.mem := rfl
@[simp] theorem advancePC_entropy (s : State) (len : Nat) : (s.advancePC len).entropy = s.entropy := rfl
@[simp] theorem advancePC_halted (s : State) (len : Nat) : (s.advancePC len).halted = s.halted := rfl
@[simp] theorem advancePC_suppress (s : State) (len : Nat) : (s.advancePC len).suppress = false := rfl
@[simp] theorem advancePC_run (s : State) (len : Nat) : (s.advancePC len).run = s.run := rfl
@[simp] theorem advancePC_count (s : State) (len : Nat) : (s.advancePC len).count = s.count := rfl
@[simp] theorem advancePC_intervalCount (s : State) (len : Nat) : (s.advancePC len).intervalCount = s.intervalCount := rfl
@[simp] theorem advancePC_backupPC (s : State) (len : Nat) : (s.advancePC len).backupPC = s.backupPC := rfl
@[simp] theorem advancePC_paused (s : State) (len : Nat) : (s.advancePC len).paused = s.paused := rfl
@[simp] theorem advancePC_cfg (s : State) (len : Nat) : (s.advancePC len).cfg = s.cfg := rfl
@[simp] theorem advancePC_draws (s : State) (len : Nat) : (s.advancePC len).draws = s.draws := rfl
@[simp] theorem advancePC_pending (s : State) (len : Nat) : (s.advancePC len).pending = s.pending := rfl

@[simp] theorem countStep_a (s : State) : (s.countStep).a = s.a := rfl
@[simp] theorem countStep_x (s : State) : (s.countStep).x = s.x := rfl
@[simp] theorem countStep_y (s : State) : (s.countStep).y = s.y := rfl
@[simp] theorem countStep_sp (s : State) : (s.countStep).sp = s.sp := rfl
@[simp] theorem countStep_pc (s : State) : (s.countStep).pc = s.pc := rfl
@[simp] theorem countStep_p (s : State) : (s.countStep).p = s.p := rfl
@[simp] theorem countStep_mem (s : State) : (s.countStep).mem = s.mem := rfl
@[simp] theorem countStep_entropy (s : State) : (s.countStep).entropy = s.entropy := rfl
@[simp] theorem countStep_halted (s : State) : (s.countStep).halted = s.halted := rfl
@[simp] theorem countStep_suppress (s : State) : (s.countStep).suppress = s.suppress := rfl
@[simp] theorem countStep_run (s : State) : (s.countStep).run = s.run := rfl
@[simp] theorem countStep_count (s : State) : (s.countStep).count = s.count + 1 := rfl
@[simp] theorem countStep_intervalCount (s : State) : (s.countStep).intervalCount = s.intervalCount + 1 := rfl
@[simp] theorem countStep_backupPC (s : State) : (s.countStep).backupPC = s.backupPC := rfl
@[simp] theorem countStep_paused (s : State) : (s.countStep).paused = s.paused := rfl
@[simp] theorem countStep_cfg (s : State) : (s.countStep).cfg = s.cfg := rfl
@[simp] theorem countStep_draws (s : State) : (s.countStep).draws = s.draws := rfl
@[simp] theorem countStep_pending (s : State) : (s.countStep).pending = s.pending := rfl

@[simp] theorem writeEntropy_a (s : State) : (s.writeEntropy).a = s.a := rfl
@[simp] theorem writeEntropy_x (s : State) : (s.writeEntropy).x = s.x := rfl
@[simp] theorem writeEntropy_y (s : State) : (s.writeEntropy).y = s.y := rfl
@[simp] theorem writeEntropy_sp (s : State) : (s.writeEntropy).sp = s.sp := rfl
@[simp] theorem writeEntropy_pc (s : State) : (s.writeEntropy).pc = s.pc := rfl
@[simp] theorem writeEntropy_p (s : State) : (s.writeEntropy).p = s.p := rfl
@[simp] theorem writeEntropy_halted (s : State) : (s.writeEntropy).halted = s.halted := rfl
@[simp] theorem writeEntropy_suppress (s : State) : (s.writeEntropy).suppress = s.suppress := rfl
@[simp] theorem writeEntropy_run (s : State) : (s.writeEntropy).run = s.run := rfl
@[simp] theorem writeEntropy_count (s : State) : (s.writeEntropy).count = s.count := rfl
@[simp] theorem writeEntropy_intervalCount (s : State) : (s.writeEntropy).intervalCount = s.intervalCount := rfl
@[simp] theorem writeEntropy_backupPC (s : State) : (s.writeEntropy).backupPC = s.backupPC := rfl
@[simp] theorem writeEntropy_paused (s : State) : (s.writeEntropy).paused = s.paused := rfl
@[simp] theorem writeEntropy_cfg (s : State) : (s.writeEntropy).cfg = s.cfg := rfl
@[simp] theorem writeEntropy_draws (s : State) : (s.writeEntropy).draws = s.draws + 1 := rfl
@[simp] theorem writeEntropy_pending (s : State) : (s.writeEntropy).pending = s.pending := rfl
@[simp] theorem writeEntropy_mem (s : State) : s.writeEntropy.mem = s.mem := if_pos rfl
@[simp] theorem writeEntropy_entropy (s : State) : s.writeEntropy.entropy = s.entropyByte := if_pos rfl

@[simp] theorem settleHalt_a (s : State) : (s.settleHalt).a = s.a := by unfold settleHalt; split <;> rfl
@[simp] theorem settleHalt_x (s : State) : (s.settleHalt).x = s.x := by unfold settleHalt; split <;> rfl
@[simp] theorem settleHalt_y (s : State) : (s.settleHalt).y = s.y := by unfold settleHalt; split <;> rfl
@[simp] theorem settleHalt_sp (s : State) : (s.settleHalt).sp = s.sp := by unfold settleHalt; split <;> rfl
@[simp] theorem settleHalt_pc (s : State) : (s.settleHalt).pc = s.pc := by unfold settleHalt; split <;> rfl
@[simp] theorem settleHalt_p (s : State) : (s.settleHalt).p = s.p := by unfold settleHalt; split <;> rfl
@[simp] theorem settleHalt_mem (s : State) : (s.settleHalt).mem = s.mem := by unfold settleHalt; split <;> rfl
@[simp] theorem settleHalt_entropy (s : State) : (s.settleHalt).entropy = s.entropy := by unfold settleHalt; split <;> rfl
@[simp] theorem settleHalt_halted (s : State) : (s.settleHalt).halted = s.halted := by unfold settleHalt; split <;> rfl
@[simp] theorem settleHalt_suppress (s : State) : (s.settleHalt).suppress = s.suppress := by unfold settleHalt; split <;> rfl
@[simp] theorem settleHalt_run (s : State) : (s.settleHalt).run = if s.halted then .halted else s.run := by unfold settleHalt; split <;> rfl
@[simp] theorem settleHalt_count (s : State) : (s.settleHalt).count = s.count := by unfold settleHalt; split <;> rfl
@[simp] theorem settleHalt_intervalCount (s : State) : (s.settleHalt).intervalCount = s.intervalCount := by unfold settleHalt; split <;> rfl
@[simp] theorem settleHalt_backupPC (s : State) : (s.settleHalt).backupPC = s.backupPC := by unfold settleHalt; split <;> rfl
@[simp] theorem settleHalt_paused (s : State) : (s.settleHalt).paused = s.paused := by unfold settleHalt; split <;> rfl
@[simp] theorem settleHalt_cfg (s : State) : (s.settleHalt).cfg = s.cfg := by unfold settleHalt; split <;> rfl
@[simp] theorem settleHalt_draws (s : State) : (s.settleHalt).draws = s.draws := by unfold settleHalt; split <;> rfl
@[simp] theorem settleHalt_pending (s : State) : (s.settleHalt).pending = s.pending := by unfold settleHalt; split <;> rfl

@[simp] theorem checkBreakpoint_a (s : State) : (s.checkBreakpoint).a = s.a := by unfold checkBreakpoint; split <;> simp [*]
@[simp] theorem checkBreakpoint_x (s : State) : (s.checkBreakpoint).x = s.x := by unfold checkBreakpoint; split <;> simp [*]
@[simp] theorem checkBreakpoint_y (s : State) : (s.checkBreakpoint).y = s.y := by unfold checkBreakpoint; split <;> simp [*]
@[simp] theorem checkBreakpoint_sp (s : State) : (s.checkBreakpoint).sp = s.sp := by unfold checkBreakpoint; split <;> simp [*]
@[simp] theorem checkBreakpoint_pc (s : State) : (s.checkBreakpoint).pc = s.pc := by unfold checkBreakpoint; split <;> simp [*]
@[simp] theorem checkBreakpoint_p (s : State) : (s.checkBreakpoint).p = s.p := by unfold checkBreakpoint; split <;> simp [*]
@[simp] theorem checkBreakpoint_mem (s : State) : (s.checkBreakpoint).mem = s.mem := by unfold checkBreakpoint; split <;> simp [*]
@[simp] theorem checkBreakpoint_entropy (s : State) : (s.checkBreakpoint).entropy = s.entropy := by unfold checkBreakpoint; split <;> simp [*]
@[simp] theorem checkBreakpoint_halted (s : State) : (s.checkBreakpoint).halted = s.halted := by unfold checkBreakpoint; split <;> simp [*]
@[simp] theorem checkBreakpoint_suppress (s : State) : (s.checkBreakpoint).suppress = s.suppress := by unfold checkBreakpoint; split <;> simp [*]
@[simp] theorem checkBreakpoint_run (s : State) : (s.checkBreakpoint).run = s.run := by unfold checkBreakpoint; split <;> simp [*]
@[simp] theorem checkBreakpoint_count (s : State) : (s.checkBreakpoint).count = s.count := by unfold checkBreakpoint; split <;> simp [*]
@[simp] theorem checkBreakpoint_intervalCount (s : State) : (s.checkBreakpoint).intervalCount = s.intervalCount := by unfold checkBreakpoint; split <;> simp [*]
@[simp] theorem checkBreakpoint_backupPC (s : State) : (s.checkBreakpoint).backupPC = s.backupPC := by unfold checkBreakpoint; split <;> simp [*]
@[simp] theorem checkBreakpoint_paused (s : State) : (s.checkBreakpoint).paused = (s.breakpointHit || s.paused) := by unfold checkBreakpoint; split <;> simp [*]
@[simp] theorem checkBreakpoint_cfg (s : State) : (s.checkBreakpoint).cfg = s.cfg := by unfold checkBreakpoint; split <;> simp [*]
@[simp] theorem checkBreakpoint_draws (s : State) : (s.checkBreakpoint).draws = s.draws := by unfold checkBreakpoint; split <;> simp [*]
@[simp] theorem checkBreakpoint_pending (s : State) : (s.checkBreakpoint).pending = s.pending := by unfold checkBreakpoint; split <;> simp [*]

/-! ## Flags and reads of memory -/

@[simp] theorem flag_writeByte (s : State) (addr : Word) (v : Byte) (g : Flag) : (s.writeByte addr v).flag g = s.flag g := rfl
@[simp] theorem flag_push (s : State) (v : Byte) (g : Flag) : (s.push v).flag g = s.flag g := rfl
@[simp] theorem flag_writeEntropy (s : State) (g : Flag) : (s.writeEntropy).flag g = s.flag g := rfl
@[simp] theorem flag_writeTarget (s : State) (t : Target) (v : Byte) (g : Flag) : (s.writeTarget t v).flag g = s.flag g := by
  cases t <;> rfl
@[simp] theorem flag_setA (s : State) (v : Byte) (g : Flag) : (s.setA v).flag g = s.flag g := rfl
@[simp] theorem readByte_setA (s : State) (v : Byte) (addr : Word) : (s.setA v).readByte addr = s.readByte addr := rfl
@[simp] theorem flag_setX (s : State) (v : Byte) (g : Flag) : (s.setX v).flag g = s.flag g := rfl
@[simp] theorem readByte_setX (s : State) (v : Byte) (addr : Word) : (s.setX v).readByte addr = s.readByte addr := rfl
@[simp] theorem flag_setY (s : State) (v : Byte) (g : Flag) : (s.setY v).flag g = s.flag g := rfl
@[simp] theorem readByte_setY (s : State) (v : Byte) (addr : Word) : (s.setY v).readByte addr = s.readByte addr := rfl
@[simp] theorem flag_setSp (s : State) (v : Byte) (g : Flag) : (s.setSp v).flag g = s.flag g := rfl
@[simp] theorem readByte_setSp (s : State) (v : Byte) (addr : Word) : (s.setSp v).readByte addr = s.readByte addr := rfl
@[simp] theorem readByte_setP (s : State) (v : Byte) (addr : Word) : (s.setP v).readByte addr = s.readByte addr := rfl
@[simp] theorem flag_advance (s : State) (g : Flag) : (s.advance).flag g = s.flag g := rfl
@[simp] theorem readByte_advance (s : State) (addr : Word) : (s.advance).readByte addr = s.readByte addr := rfl
@[simp] theorem flag_jump (s : State) (t : Word) (g : Flag) : (s.jump t).flag g = s.flag g := rfl
@[simp] theorem readByte_jump (s : State) (t : Word) (addr : Word) : (s.jump t).readByte addr = s.readByte addr := rfl
@[simp] theorem flag_halt (s : State) (g : Flag) : (s.halt).flag g = s.flag g := rfl
@[simp] theorem readByte_halt (s : State) (addr : Word) : (s.halt).readByte addr = s.readByte addr := rfl
@[simp] theorem flag_pulled (s : State) (g : Flag) : (s.pulled).flag g = s.flag g := rfl
@[simp] theorem readByte_pulled (s : State) (addr : Word) : (s.pulled).readByte addr = s.readByte addr := rfl
@[simp] theorem readByte_setFlag (s : State) (f : Flag) (v : Bool) (addr : Word) : (s.setFlag f v).readByte addr = s.readByte addr := rfl
@[simp] theorem readByte_setNZ (s : State) (v : Byte) (addr : Word) : (s.setNZ v).readByte addr = s.readByte addr := rfl
@[simp] theorem readByte_setShift (s : State) (c : Bool) (r : Byte) (addr : Word) : (s.setShift c r).readByte addr = s.readByte addr := rfl
@[simp] theorem readByte_setAlu (s : State) (out : AluResult) (addr : Word) : (s.setAlu out).readByte addr = s.readByte addr := rfl
@[simp] theorem readByte_compare (s : State) (reg : Byte) (m : Byte) (addr : Word) : (s.compare reg m).readByte addr = s.readByte addr := by unfold compare; (repeat' split) <;> rfl
@[simp] theorem flag_snapshotPC (s : State) (g : Flag) : (s.snapshotPC).flag g = s.flag g := rfl
@[simp] theorem readByte_snapshotPC (s : State) (addr : Word) : (s.snapshotPC).readByte addr = s.readByte addr := rfl
@[simp] theorem flag_advancePC (s : State) (len : Nat) (g : Flag) : (s.advancePC len).flag g = s.flag g := rfl
@[simp] theorem readByte_advancePC (s : State) (len : Nat) (addr : Word) : (s.advancePC len).readByte addr = s.readByte addr := rfl
@[simp] theorem flag_countStep (s : State) (g : Flag) : (s.countStep).flag g = s.flag g := rfl
@[simp] theorem readByte_countStep (s : State) (addr : Word) : (s.countStep).readByte addr = s.readByte addr := rfl
@[simp] theorem flag_settleHalt (s : State) (g : Flag) : (s.settleHalt).flag g = s.flag g := by unfold settleHalt; split <;> rfl
@[simp] theorem readByte_settleHalt (s : State) (addr : Word) : (s.settleHalt).readByte addr = s.readByte addr := by unfold settleHalt; split <;> rfl
@[simp] theorem flag_checkBreakpoint (s : State) (g : Flag) : (s.checkBreakpoint).flag g = s.flag g := by unfold checkBreakpoint; split <;> rfl
@[simp] theorem readByte_checkBreakpoint (s : State) (addr : Word) : (s.checkBreakpoint).readByte addr = s.readByte addr := by unfold checkBreakpoint; split <;> rfl

end Sys2Proof.Machine.State
end

