-- ==== Sys2Proof/Laws/Memory.lean ====
section
/-! SUPPORT. The laws of memory: a read after a write, the canonical form is kept by every operation, and canonical memories that
read alike are equal. -/

namespace Sys2Proof.Machine

namespace Memory

@[simp] theorem read_nil (addr : Nat) : Memory.read [] addr = initialByte := rfl

theorem read_cons (k : Nat) (v : Byte) (rest : Memory) (addr : Nat) :
    Memory.read ((k, v) :: rest) addr = if k = addr then v else Memory.read rest addr := rfl

@[simp] theorem read_erase_same (m : Memory) (addr : Nat) : (m.erase addr).read addr = initialByte := by
  induction m with
  | nil => rfl
  | cons c rest ih =>
    obtain ⟨k, v⟩ := c
    by_cases h : k = addr
    · simpa [Memory.erase, h] using ih
    · simpa [Memory.erase, read_cons, h] using ih

theorem read_erase_other (m : Memory) {addr b : Nat} (hb : b ≠ addr) : (m.erase addr).read b = m.read b := by
  induction m with
  | nil => rfl
  | cons c rest ih =>
    obtain ⟨k, v⟩ := c
    by_cases h : k = addr
    · subst h
      simpa [Memory.erase, read_cons, Ne.symm hb] using ih
    · simp [Memory.erase, h, read_cons, ih]

theorem read_insert_other (m : Memory) {addr b : Nat} (v : Byte) (hb : b ≠ addr) :
    (m.insert addr v).read b = m.read b := by
  induction m with
  | nil => simp [Memory.insert, read_cons, Ne.symm hb]
  | cons c rest ih =>
    obtain ⟨k, w⟩ := c
    by_cases h : addr < k
    · simp [Memory.insert, h, read_cons, Ne.symm hb]
    · simp [Memory.insert, h, read_cons, ih]

theorem read_insert_same (m : Memory) (addr : Nat) (v : Byte) (hm : ∀ c ∈ m, c.1 ≠ addr) :
    (m.insert addr v).read addr = v := by
  induction m with
  | nil => simp [Memory.insert, read_cons]
  | cons c rest ih =>
    obtain ⟨k, w⟩ := c
    have hk : k ≠ addr := hm (k, w) (by simp)
    by_cases h : addr < k
    · simp [Memory.insert, h, read_cons]
    · simpa [Memory.insert, h, read_cons, hk] using ih fun c hc => hm c (by simp [hc])

theorem mem_erase {m : Memory} {addr : Nat} {c : Host.Cell} : c ∈ m.erase addr ↔ c ∈ m ∧ c.1 ≠ addr := by
  induction m with
  | nil => simp [Memory.erase]
  | cons d rest ih =>
    obtain ⟨k, v⟩ := d
    by_cases h : k = addr
    · simp only [Memory.erase, h, if_true, ih, List.mem_cons]
      constructor
      · rintro ⟨hc, hne⟩
        exact ⟨.inr hc, hne⟩
      · rintro ⟨rfl | hc, hne⟩
        · exact absurd rfl hne
        · exact ⟨hc, hne⟩
    · simp only [Memory.erase, h, if_false, List.mem_cons, ih]
      constructor
      · rintro (rfl | ⟨hc, hne⟩)
        · exact ⟨.inl rfl, h⟩
        · exact ⟨.inr hc, hne⟩
      · rintro ⟨rfl | hc, hne⟩
        · exact .inl rfl
        · exact .inr ⟨hc, hne⟩

theorem mem_insert {m : Memory} {addr : Nat} {v : Byte} {c : Host.Cell} :
    c ∈ m.insert addr v ↔ c = (addr, v) ∨ c ∈ m := by
  induction m with
  | nil => simp [Memory.insert]
  | cons d rest ih =>
    obtain ⟨k, w⟩ := d
    by_cases h : addr < k
    · simp [Memory.insert, h]
    · simp only [Memory.insert, h, if_false, List.mem_cons, ih]
      tauto

/-- A write is seen by a read of its own address and by no other read. -/
theorem read_write (m : Memory) (addr b : Nat) (v : Byte) :
    (m.write addr v).read b = if b = addr then v else m.read b := by
  unfold Memory.write
  by_cases hb : b = addr
  · subst hb
    by_cases hv : v = initialByte
    · simp [hv]
    · simp only [hv, if_false, if_true]
      exact read_insert_same _ _ _ fun c hc => (mem_erase.mp hc).2
  · by_cases hv : v = initialByte
    · simp [hv, hb, read_erase_other m hb]
    · simp [hv, hb, read_insert_other _ v hb, read_erase_other m hb]

/-! ## The canonical form -/

/-- What the canonical form says, as a proposition. -/
theorem wf_iff (m : Memory) :
    m.wf = true ↔ (m.Pairwise fun c d => c.1 < d.1) ∧ ∀ c ∈ m, c.1 < 65536 ∧ c.2 ≠ initialByte := by
  simp [Memory.wf]

@[simp] theorem wf_nil : Memory.wf [] = true := rfl

theorem pairwise_erase {m : Memory} (addr : Nat) (h : m.Pairwise fun c d => c.1 < d.1) :
    (m.erase addr).Pairwise fun c d => c.1 < d.1 := by
  induction m with
  | nil => exact h
  | cons c rest ih =>
    obtain ⟨k, v⟩ := c
    rw [List.pairwise_cons] at h
    by_cases hk : k = addr
    · simpa [Memory.erase, hk] using ih h.2
    · simp only [Memory.erase, hk, if_false, List.pairwise_cons]
      exact ⟨fun d hd => h.1 d (mem_erase.mp hd).1, ih h.2⟩

theorem pairwise_insert {m : Memory} {addr : Nat} (v : Byte) (h : m.Pairwise fun c d => c.1 < d.1)
    (hm : ∀ c ∈ m, c.1 ≠ addr) : (m.insert addr v).Pairwise fun c d => c.1 < d.1 := by
  induction m with
  | nil => simp [Memory.insert]
  | cons c rest ih =>
    obtain ⟨k, w⟩ := c
    have hk : k ≠ addr := hm (k, w) (by simp)
    have hcons := List.pairwise_cons.mp h
    by_cases hlt : addr < k
    · simp only [Memory.insert, hlt, if_true, List.pairwise_cons]
      refine ⟨fun d hd => ?_, hcons⟩
      rcases List.mem_cons.mp hd with rfl | hd
      · exact hlt
      · exact Nat.lt_trans hlt (hcons.1 d hd)
    · simp only [Memory.insert, hlt, if_false, List.pairwise_cons]
      refine ⟨fun d hd => ?_, ih hcons.2 fun c hc => hm c (by simp [hc])⟩
      rcases mem_insert.mp hd with rfl | hd
      · exact lt_of_le_of_ne (Nat.not_lt.mp hlt) hk
      · exact hcons.1 d hd

theorem wf_erase {m : Memory} (addr : Nat) (h : m.wf = true) : (m.erase addr).wf = true := by
  rw [wf_iff] at h ⊢
  exact ⟨pairwise_erase addr h.1, fun c hc => h.2 c (mem_erase.mp hc).1⟩

/-- Every write inside the address space keeps the canonical form. -/
theorem wf_write {m : Memory} {addr : Nat} (v : Byte) (h : m.wf = true) (ha : addr < 65536) :
    (m.write addr v).wf = true := by
  unfold Memory.write
  by_cases hv : v = initialByte
  · simpa [hv] using wf_erase addr h
  · simp only [hv, if_false]
    have he := wf_erase addr h
    rw [wf_iff] at he ⊢
    refine ⟨pairwise_insert v he.1 fun c hc => (mem_erase.mp hc).2, fun c hc => ?_⟩
    rcases mem_insert.mp hc with rfl | hc
    · exact ⟨ha, hv⟩
    · exact he.2 c hc

theorem read_eq_initial_of_all_ne {m : Memory} {addr : Nat} (h : ∀ c ∈ m, c.1 ≠ addr) : m.read addr = initialByte := by
  induction m with
  | nil => rfl
  | cons c rest ih =>
    obtain ⟨k, v⟩ := c
    have hk : k ≠ addr := h (k, v) (by simp)
    simpa [read_cons, hk] using ih fun c hc => h c (by simp [hc])

/-- The canonical form is canonical: memories in it that read alike are the same list. -/
theorem eq_of_read_eq {m n : Memory} (hm : m.wf = true) (hn : n.wf = true) (h : ∀ addr, m.read addr = n.read addr) :
    m = n := by
  induction m generalizing n with
  | nil =>
    cases n with
    | nil => rfl
    | cons d rest =>
      obtain ⟨k, v⟩ := d
      have hv := ((wf_iff _).mp hn).2 (k, v) (by simp)
      have := h k
      simp only [read_nil, read_cons, if_true] at this
      exact absurd this.symm hv.2
  | cons c rest ih =>
    obtain ⟨k, v⟩ := c
    have hm' := (wf_iff _).mp hm
    have hmc := List.pairwise_cons.mp hm'.1
    have hv := hm'.2 (k, v) (by simp)
    have tail_wf {x : Host.Cell} {xs : Memory} (hx : Memory.wf (x :: xs) = true) : Memory.wf xs = true := by
      rw [wf_iff] at hx ⊢
      exact ⟨(List.pairwise_cons.mp hx.1).2, fun c hc => hx.2 c (by simp [hc])⟩
    cases n with
    | nil =>
      have := h k
      simp only [read_nil, read_cons, if_true] at this
      exact absurd this hv.2
    | cons d rest' =>
      obtain ⟨l, w⟩ := d
      have hn' := (wf_iff _).mp hn
      have hnc := List.pairwise_cons.mp hn'.1
      have hw := hn'.2 (l, w) (by simp)
      have hkl : k = l := by
        rcases Nat.lt_trichotomy k l with hlt | heq | hgt
        · have hk := h k
          rw [read_cons, if_pos rfl, read_cons, if_neg (by omega),
            read_eq_initial_of_all_ne fun c hc => by have := hnc.1 c hc; simp only at this; omega] at hk
          exact absurd hk hv.2
        · exact heq
        · have hl := h l
          rw [read_cons, if_neg (by omega), read_cons, if_pos rfl,
            read_eq_initial_of_all_ne fun c hc => by have := hmc.1 c hc; simp only at this; omega] at hl
          exact absurd hl.symm hw.2
      subst hkl
      have hvw : v = w := by simpa [read_cons] using h k
      subst hvw
      congr 1
      refine ih (tail_wf hm) (tail_wf hn) fun addr => ?_
      by_cases ha : k = addr
      · subst ha
        rw [read_eq_initial_of_all_ne fun c hc => by have := hmc.1 c hc; simp only at this; omega,
          read_eq_initial_of_all_ne fun c hc => by have := hnc.1 c hc; simp only at this; omega]
      · simpa [read_cons, ha] using h addr

end Memory

namespace State

/-- `MemWrite` is seen by a read of its own address and by no other read (R62, R63). -/
theorem readByte_writeByte (s : State) (addr b : Word) (v : Byte) :
    (s.writeByte addr v).readByte b = if b = addr then v else s.readByte b := by
  unfold readByte
  simp only [writeByte_cfg]
  by_cases he : b = s.cfg.entropyAddr
  · by_cases hb : b = addr
    · simp [writeByte, he, ← hb]
    · have : ¬ addr = s.cfg.entropyAddr := fun h => hb (he.trans h.symm)
      simp [writeByte, he, this]
      intro h
      exact absurd h.symm this
  · by_cases ha : addr = s.cfg.entropyAddr
    · have : ¬ b = addr := fun h => he (h.trans ha)
      simp [writeByte, he, ha]
    · simp only [writeByte, he, ha, if_false, Memory.read_write, BitVec.toNat_inj]

@[simp] theorem readByte_writeByte_same (s : State) (addr : Word) (v : Byte) :
    (s.writeByte addr v).readByte addr = v := by simp [readByte_writeByte]

theorem readByte_writeByte_other (s : State) {addr b : Word} (v : Byte) (h : b ≠ addr) :
    (s.writeByte addr v).readByte b = s.readByte b := by simp [readByte_writeByte, h]

/-- A state with the same memory, entropy cell and configuration reads the same bytes. -/
theorem readByte_congr {s t : State} (hm : t.mem = s.mem) (he : t.entropy = s.entropy) (hc : t.cfg = s.cfg) (b : Word) :
    t.readByte b = s.readByte b := by simp [readByte, hm, he, hc]

/-- The scheduler's entropy write is seen at the entropy cell and nowhere else (R75). -/
theorem readByte_writeEntropy (s : State) (b : Word) :
    s.writeEntropy.readByte b = if b = s.cfg.entropyAddr then s.entropyByte else s.readByte b := by
  by_cases h : b = s.cfg.entropyAddr <;> simp [readByte, h]

@[simp] theorem writeTarget_acc (s : State) (v : Byte) : s.writeTarget .acc v = s.setA v := rfl

@[simp] theorem writeTarget_mem (s : State) (m : MemOperand) (v : Byte) :
    s.writeTarget (.mem m) v = s.writeByte (s.ea m) v := rfl

/-- A byte write keeps the canonical form. -/
theorem wf_writeByte {s : State} (addr : Word) (v : Byte) (h : s.mem.wf = true) : (s.writeByte addr v).mem.wf = true := by
  unfold writeByte
  by_cases ha : addr = s.cfg.entropyAddr
  · simpa [ha] using h
  · simpa [ha] using Memory.wf_write v h addr.isLt

/-- Different stack pointers designate different cells of the stack page (R27). -/
theorem stackAddr_inj {p q : Byte} : stackAddr p = stackAddr q ↔ p = q := by
  unfold stackAddr zext16
  constructor
  · intro h
    bv_omega
  · rintro rfl
    rfl

/-- A push is seen at the cell SP designated and nowhere else (R70). -/
theorem readByte_push (s : State) (v : Byte) (b : Word) :
    (s.push v).readByte b = if b = stackAddr s.sp then v else s.readByte b := readByte_writeByte s (stackAddr s.sp) b v

/-- A push keeps the canonical form. -/
theorem wf_push {s : State} (v : Byte) (h : s.mem.wf = true) : (s.push v).mem.wf = true :=
  wf_writeByte (stackAddr s.sp) v h

end State

end Sys2Proof.Machine
end

