-- ==== Sys2Proof/Laws/Flags.lean ====
section
/-! SUPPORT. What each flag of the status register is after each flag computation (R150 to R153, R156, R232, R252, R253). -/

namespace Sys2Proof.Machine

/-- Writing one flag leaves the others alone (R11). -/
theorem flagOf_withFlag (p : Byte) (f g : Flag) (v : Bool) :
    flagOf (withFlag p f v) g = if g = f then v else flagOf p g := by
  cases f <;> cases g <;> cases v <;> simp [flagOf, withFlag, Flag.bit]

@[simp] theorem flagOf_withFlag_same (p : Byte) (f : Flag) (v : Bool) : flagOf (withFlag p f v) f = v := by
  simp [flagOf_withFlag]

theorem flagOf_withFlag_other (p : Byte) {f g : Flag} (v : Bool) (h : g ≠ f) :
    flagOf (withFlag p f v) g = flagOf p g := by simp [flagOf_withFlag, h]

/-- A status byte is its eight flags. -/
theorem status_ext {p q : Byte} (h : ∀ f, flagOf p f = flagOf q f) : p = q := by
  apply BitVec.eq_of_getLsbD_eq
  intro i hi
  have : i = 0 ∨ i = 1 ∨ i = 2 ∨ i = 3 ∨ i = 4 ∨ i = 5 ∨ i = 6 ∨ i = 7 := by omega
  rcases this with rfl | rfl | rfl | rfl | rfl | rfl | rfl | rfl
  · exact h .C
  · exact h .Z
  · exact h .I
  · exact h .D
  · exact h .B
  · exact h .U
  · exact h .V
  · exact h .N

/-! ## Digits (R152, R153) -/

theorem decDigitAdd_digit (n : Nat) : (decDigitAdd n).1 = if 9 < n then n - 10 else n := by
  unfold decDigitAdd
  split <;> rfl

theorem decDigitAdd_carry (n : Nat) : (decDigitAdd n).2 = decide (9 < n) := by
  unfold decDigitAdd
  split <;> simp_all

theorem decDigitSub_digit (n : Int) : (decDigitSub n).1 = if n < 0 then n + 10 else n := by
  unfold decDigitSub
  split <;> rfl

theorem decDigitSub_borrow (n : Int) : (decDigitSub n).2 = decide (n < 0) := by
  unfold decDigitSub
  split <;> simp_all

theorem toNat_byteOfNibbles (hi lo : Nat) : (byteOfNibbles hi lo).toNat = hi % 16 * 16 + lo % 16 := by
  simp only [byteOfNibbles, BitVec.toNat_ofNat]
  omega

namespace State

theorem flag_eq (s : State) (f : Flag) : s.flag f = flagOf s.p f := rfl

/-- The flags after one flag write. -/
theorem flag_setFlag (s : State) (f g : Flag) (v : Bool) :
    (s.setFlag f v).flag g = if g = f then v else s.flag g := flagOf_withFlag s.p f g v

/-- The flags after `SetNZ` (R150). -/
theorem flag_setNZ (s : State) (v : Byte) (g : Flag) :
    (s.setNZ v).flag g = if g = .N then v.getLsbD 7 else if g = .Z then v == 0 else s.flag g := by
  rw [setNZ, flag_setFlag, flag_setFlag]

/-- The flags after a shift's flag write (R194 to R197). -/
theorem flag_setShift (s : State) (c : Bool) (r : Byte) (g : Flag) :
    (s.setShift c r).flag g =
      if g = .N then r.getLsbD 7 else if g = .Z then r == 0 else if g = .C then c else s.flag g := by
  rw [setShift, flag_setNZ, flag_setFlag]

/-- The flags after an addition or subtraction (R154, R155). -/
theorem flag_setAlu (s : State) (out : AluResult) (g : Flag) :
    (s.setAlu out).flag g =
      if g = .N then out.r.getLsbD 7 else if g = .Z then out.r == 0 else if g = .V then out.overflow
      else if g = .C then out.carry else s.flag g := by
  rw [setAlu, flag_setNZ, flag_setFlag, flag_setFlag]
  rfl

/-- The flags after a compare, in the form R156 derives from its three cases. -/
theorem flag_compare (s : State) (reg m : Byte) (g : Flag) :
    (s.compare reg m).flag g =
      if g = .C then decide (m.toNat ≤ reg.toNat) else if g = .Z then decide (reg = m)
      else if g = .N then (reg - m).getLsbD 7 else s.flag g := by
  unfold compare
  by_cases hlt : reg.toNat < m.toNat
  · have hne : reg ≠ m := fun h => by simp [h] at hlt
    have hle : ¬ m.toNat ≤ reg.toNat := by omega
    simp only [hlt, if_true, flag_setFlag, hne, hle, decide_false]
  · by_cases heq : reg = m
    · subst heq
      simp [flag_setFlag]
    · have hle : m.toNat ≤ reg.toNat := by omega
      simp only [hlt, if_false, heq, flag_setFlag, hle, decide_true, decide_false]

end State

/-- The flags PLP and RTI restore: all but break and the unused bit (R232, R253). -/
theorem flagOf_restoredStatus (pulled p : Byte) (g : Flag) :
    flagOf (restoredStatus pulled p) g = if g = .B ∨ g = .U then flagOf p g else flagOf pulled g := by
  cases g <;> simp [flagOf, restoredStatus, Flag.bit]

/-- The flags of the byte PHP pushes (R252). -/
theorem flagOf_pushedStatus (p : Byte) (g : Flag) :
    flagOf (pushedStatus p) g = if g = .B ∨ g = .U then true else flagOf p g := by
  cases g <;> simp [flagOf, pushedStatus, Flag.bit]

/-- PHP then PLP gives the status back, whatever break and the unused bit hold (R253). -/
theorem restoredStatus_pushedStatus (p : Byte) : restoredStatus (pushedStatus p) p = p := by
  apply status_ext
  intro f
  rw [flagOf_restoredStatus, flagOf_pushedStatus]
  split <;> rfl

end Sys2Proof.Machine
end

