-- ==== Sys2Proof/Laws/Exec.lean ====
section
/-! SUPPORT. `exec` through the entry (instruction, addressing mode) of the opcode table: `exec_eq_byOp` says once, for all 151
constructors, that an instruction's meaning is the shared operation of its mnemonic on the operand of its mode, and one lemma
per mnemonic gives that operation and the shape of its operand. Every shared operation is an equation `op… = .next …`, so it
says itself everything it can do. -/

namespace Sys2Proof

/-- The source an operand is, if it is one. -/
def Operand.source? : Operand → Option Source
  | .imm b => some (.imm b)
  | .mem m => some (.mem m)
  | .imp => none
  | .acc => none
  | .ind _ => none
  | .rel _ => none

/-- The target an operand is, if it is one. -/
def Operand.target? : Operand → Option Target
  | .acc => some .acc
  | .mem m => some (.mem m)
  | .imm _ => none
  | .imp => none
  | .ind _ => none
  | .rel _ => none

/-- The memory operand an operand is, if it is one. -/
def Operand.mem? : Operand → Option MemOperand
  | .mem m => some m
  | .acc => none
  | .imm _ => none
  | .imp => none
  | .ind _ => none
  | .rel _ => none

/-- The branch offset an operand is, if it is one. -/
def Operand.rel? : Operand → Option Byte
  | .rel b => some b
  | .mem _ => none
  | .acc => none
  | .imm _ => none
  | .imp => none
  | .ind _ => none

theorem Operand.source?_eq_some {o : Operand} {src : Source} (h : o.source? = some src) : o = src.operand := by
  cases o <;> simp [Operand.source?] at h
  all_goals (subst h; rfl)

theorem Operand.target?_eq_some {o : Operand} {t : Target} (h : o.target? = some t) : o = t.operand := by
  cases o <;> simp [Operand.target?] at h
  all_goals (subst h; rfl)

theorem Operand.mem?_eq_some {o : Operand} {m : MemOperand} (h : o.mem? = some m) : o = .mem m := by
  cases o <;> simp [Operand.mem?] at h
  subst h
  rfl

theorem Operand.rel?_eq_some {o : Operand} {b : Byte} (h : o.rel? = some b) : o = .rel b := by
  cases o <;> simp [Operand.rel?] at h
  subst h
  rfl

namespace Machine

/-- Apply a shared operation to an operand, if the operand has the operation's kind. -/
def onOperand {α : Type} (k : Operand → Option α) (f : α → State → Result) (o : Operand) (s : State) : Option Result :=
  (k o).map fun x => f x s

/-- The word of an absolute operand, which is JSR's target (R110, R230). -/
def absTarget? : Operand → Option Word
  | .mem (.abs w) => some w
  | .ind _ => none
  | .mem (.zp _) => none
  | .mem (.zpx _) => none
  | .mem (.zpy _) => none
  | .mem (.absx _) => none
  | .mem (.absy _) => none
  | .mem (.indx _) => none
  | .mem (.indy _) => none
  | .imp => none
  | .acc => none
  | .imm _ => none
  | .rel _ => none

/-- The target JMP's operand gives in a state (R110, R113, C8): the word itself, or the word stored where it points. -/
def jumpTarget? : Operand → Option (State → Word)
  | .mem (.abs w) => some fun _ => w
  | .ind w => some fun s => s.indirectTarget w
  | .mem (.zp _) => none
  | .mem (.zpx _) => none
  | .mem (.zpy _) => none
  | .mem (.absx _) => none
  | .mem (.absy _) => none
  | .mem (.indx _) => none
  | .mem (.indy _) => none
  | .imp => none
  | .acc => none
  | .imm _ => none
  | .rel _ => none

theorem absTarget?_eq_some {o : Operand} {w : Word} (h : absTarget? o = some w) : o = .mem (.abs w) := by
  unfold absTarget? at h
  split at h <;> first | exact Option.some.inj h ▸ rfl | simp at h

theorem jumpTarget?_eq_some {o : Operand} {f : State → Word} (h : jumpTarget? o = some f) :
    (∃ w, o = .mem (.abs w) ∧ f = fun _ => w) ∨ ∃ w, o = .ind w ∧ f = fun s => s.indirectTarget w := by
  unfold jumpTarget? at h
  split at h
  · exact .inl ⟨_, rfl, (Option.some.inj h).symm⟩
  · exact .inr ⟨_, rfl, (Option.some.inj h).symm⟩
  all_goals simp at h

/-- The meaning of a mnemonic on an operand: `none` where the operand is not of its kind. -/
def byOp (o : Op) (x : Operand) (s : State) : Option Result :=
  match o with
  | .ADC => onOperand Operand.source? opADC x s
  | .SBC => onOperand Operand.source? opSBC x s
  | .CMP => onOperand Operand.source? opCMP x s
  | .CPX => onOperand Operand.source? opCPX x s
  | .CPY => onOperand Operand.source? opCPY x s
  | .INC => onOperand Operand.mem? opINC x s
  | .DEC => onOperand Operand.mem? opDEC x s
  | .INX => some (opINX s)
  | .INY => some (opINY s)
  | .DEX => some (opDEX s)
  | .DEY => some (opDEY s)
  | .AND => onOperand Operand.source? opAND x s
  | .ORA => onOperand Operand.source? opORA x s
  | .EOR => onOperand Operand.source? opEOR x s
  | .BIT => onOperand Operand.mem? opBIT x s
  | .ASL => onOperand Operand.target? opASL x s
  | .LSR => onOperand Operand.target? opLSR x s
  | .ROL => onOperand Operand.target? opROL x s
  | .ROR => onOperand Operand.target? opROR x s
  | .BCC => onOperand Operand.rel? opBCC x s
  | .BCS => onOperand Operand.rel? opBCS x s
  | .BEQ => onOperand Operand.rel? opBEQ x s
  | .BNE => onOperand Operand.rel? opBNE x s
  | .BPL => onOperand Operand.rel? opBPL x s
  | .BMI => onOperand Operand.rel? opBMI x s
  | .BVC => onOperand Operand.rel? opBVC x s
  | .BVS => onOperand Operand.rel? opBVS x s
  | .JMP => onOperand jumpTarget? (fun f s => opJMP (f s) s) x s
  | .JSR => onOperand absTarget? opJSR x s
  | .RTS => some (opRTS s)
  | .RTI => some (opRTI s)
  | .PHA => some (opPHA s)
  | .PLA => some (opPLA s)
  | .PHP => some (opPHP s)
  | .PLP => some (opPLP s)
  | .BRK => some (opBRK s)
  | .NOP => some (opNOP s)
  | .LDA => onOperand Operand.source? opLDA x s
  | .LDX => onOperand Operand.source? opLDX x s
  | .LDY => onOperand Operand.source? opLDY x s
  | .STA => onOperand Operand.mem? opSTA x s
  | .STX => onOperand Operand.mem? opSTX x s
  | .STY => onOperand Operand.mem? opSTY x s
  | .TAX => some (opTAX s)
  | .TAY => some (opTAY s)
  | .TXA => some (opTXA s)
  | .TYA => some (opTYA s)
  | .TSX => some (opTSX s)
  | .TXS => some (opTXS s)
  | .CLC => some (opCLC s)
  | .SEC => some (opSEC s)
  | .CLI => some (opCLI s)
  | .SEI => some (opSEI s)
  | .CLD => some (opCLD s)
  | .SED => some (opSED s)
  | .CLV => some (opCLV s)

/-- Every instruction means the shared operation of its mnemonic on the operand of its mode. -/
theorem exec_eq_byOp (i : Instr) (s : State) : byOp i.op i.operand s = some (exec i s) := by
  cases i <;> rfl

/-- Every instruction is well formed: its slot pairs a mnemonic with a mode that it takes. -/
theorem wellFormed_all (i : Instr) : legalPair i.op i.mode = true := by
  cases i <;> rfl

theorem exec_onOperand {α : Type} {k : Operand → Option α} {f : α → State → Result} {i : Instr} {s : State}
    (h : onOperand k f i.operand s = some (exec i s)) : ∃ x, k i.operand = some x ∧ exec i s = f x s := by
  unfold onOperand at h
  cases hk : k i.operand with
  | none => simp [hk] at h
  | some x => exact ⟨x, rfl, by simpa [hk] using h.symm⟩

theorem exec_ADC {i : Instr} (h : i.op = .ADC) (s : State) :
    ∃ src, i.operand = src.operand ∧ exec i s = opADC src s := by
  have e := exec_eq_byOp i s
  rw [h] at e
  obtain ⟨x, hx, hr⟩ := exec_onOperand e
  exact ⟨x, Operand.source?_eq_some hx, hr⟩

theorem exec_SBC {i : Instr} (h : i.op = .SBC) (s : State) :
    ∃ src, i.operand = src.operand ∧ exec i s = opSBC src s := by
  have e := exec_eq_byOp i s
  rw [h] at e
  obtain ⟨x, hx, hr⟩ := exec_onOperand e
  exact ⟨x, Operand.source?_eq_some hx, hr⟩

theorem exec_CMP {i : Instr} (h : i.op = .CMP) (s : State) :
    ∃ src, i.operand = src.operand ∧ exec i s = opCMP src s := by
  have e := exec_eq_byOp i s
  rw [h] at e
  obtain ⟨x, hx, hr⟩ := exec_onOperand e
  exact ⟨x, Operand.source?_eq_some hx, hr⟩

theorem exec_CPX {i : Instr} (h : i.op = .CPX) (s : State) :
    ∃ src, i.operand = src.operand ∧ exec i s = opCPX src s := by
  have e := exec_eq_byOp i s
  rw [h] at e
  obtain ⟨x, hx, hr⟩ := exec_onOperand e
  exact ⟨x, Operand.source?_eq_some hx, hr⟩

theorem exec_CPY {i : Instr} (h : i.op = .CPY) (s : State) :
    ∃ src, i.operand = src.operand ∧ exec i s = opCPY src s := by
  have e := exec_eq_byOp i s
  rw [h] at e
  obtain ⟨x, hx, hr⟩ := exec_onOperand e
  exact ⟨x, Operand.source?_eq_some hx, hr⟩

theorem exec_INC {i : Instr} (h : i.op = .INC) (s : State) :
    ∃ m, i.operand = .mem m ∧ exec i s = opINC m s := by
  have e := exec_eq_byOp i s
  rw [h] at e
  obtain ⟨x, hx, hr⟩ := exec_onOperand e
  exact ⟨x, Operand.mem?_eq_some hx, hr⟩

theorem exec_DEC {i : Instr} (h : i.op = .DEC) (s : State) :
    ∃ m, i.operand = .mem m ∧ exec i s = opDEC m s := by
  have e := exec_eq_byOp i s
  rw [h] at e
  obtain ⟨x, hx, hr⟩ := exec_onOperand e
  exact ⟨x, Operand.mem?_eq_some hx, hr⟩

theorem exec_INX {i : Instr} (h : i.op = .INX) (s : State) : exec i s = opINX s := by
  have e := exec_eq_byOp i s
  rw [h] at e
  exact (Option.some.inj e).symm

theorem exec_INY {i : Instr} (h : i.op = .INY) (s : State) : exec i s = opINY s := by
  have e := exec_eq_byOp i s
  rw [h] at e
  exact (Option.some.inj e).symm

theorem exec_DEX {i : Instr} (h : i.op = .DEX) (s : State) : exec i s = opDEX s := by
  have e := exec_eq_byOp i s
  rw [h] at e
  exact (Option.some.inj e).symm

theorem exec_DEY {i : Instr} (h : i.op = .DEY) (s : State) : exec i s = opDEY s := by
  have e := exec_eq_byOp i s
  rw [h] at e
  exact (Option.some.inj e).symm

theorem exec_AND {i : Instr} (h : i.op = .AND) (s : State) :
    ∃ src, i.operand = src.operand ∧ exec i s = opAND src s := by
  have e := exec_eq_byOp i s
  rw [h] at e
  obtain ⟨x, hx, hr⟩ := exec_onOperand e
  exact ⟨x, Operand.source?_eq_some hx, hr⟩

theorem exec_ORA {i : Instr} (h : i.op = .ORA) (s : State) :
    ∃ src, i.operand = src.operand ∧ exec i s = opORA src s := by
  have e := exec_eq_byOp i s
  rw [h] at e
  obtain ⟨x, hx, hr⟩ := exec_onOperand e
  exact ⟨x, Operand.source?_eq_some hx, hr⟩

theorem exec_EOR {i : Instr} (h : i.op = .EOR) (s : State) :
    ∃ src, i.operand = src.operand ∧ exec i s = opEOR src s := by
  have e := exec_eq_byOp i s
  rw [h] at e
  obtain ⟨x, hx, hr⟩ := exec_onOperand e
  exact ⟨x, Operand.source?_eq_some hx, hr⟩

theorem exec_BIT {i : Instr} (h : i.op = .BIT) (s : State) :
    ∃ m, i.operand = .mem m ∧ exec i s = opBIT m s := by
  have e := exec_eq_byOp i s
  rw [h] at e
  obtain ⟨x, hx, hr⟩ := exec_onOperand e
  exact ⟨x, Operand.mem?_eq_some hx, hr⟩

theorem exec_ASL {i : Instr} (h : i.op = .ASL) (s : State) :
    ∃ t, i.operand = t.operand ∧ exec i s = opASL t s := by
  have e := exec_eq_byOp i s
  rw [h] at e
  obtain ⟨x, hx, hr⟩ := exec_onOperand e
  exact ⟨x, Operand.target?_eq_some hx, hr⟩

theorem exec_LSR {i : Instr} (h : i.op = .LSR) (s : State) :
    ∃ t, i.operand = t.operand ∧ exec i s = opLSR t s := by
  have e := exec_eq_byOp i s
  rw [h] at e
  obtain ⟨x, hx, hr⟩ := exec_onOperand e
  exact ⟨x, Operand.target?_eq_some hx, hr⟩

theorem exec_ROL {i : Instr} (h : i.op = .ROL) (s : State) :
    ∃ t, i.operand = t.operand ∧ exec i s = opROL t s := by
  have e := exec_eq_byOp i s
  rw [h] at e
  obtain ⟨x, hx, hr⟩ := exec_onOperand e
  exact ⟨x, Operand.target?_eq_some hx, hr⟩

theorem exec_ROR {i : Instr} (h : i.op = .ROR) (s : State) :
    ∃ t, i.operand = t.operand ∧ exec i s = opROR t s := by
  have e := exec_eq_byOp i s
  rw [h] at e
  obtain ⟨x, hx, hr⟩ := exec_onOperand e
  exact ⟨x, Operand.target?_eq_some hx, hr⟩

theorem exec_BCC {i : Instr} (h : i.op = .BCC) (s : State) :
    ∃ b, i.operand = .rel b ∧ exec i s = opBCC b s := by
  have e := exec_eq_byOp i s
  rw [h] at e
  obtain ⟨x, hx, hr⟩ := exec_onOperand e
  exact ⟨x, Operand.rel?_eq_some hx, hr⟩

theorem exec_BCS {i : Instr} (h : i.op = .BCS) (s : State) :
    ∃ b, i.operand = .rel b ∧ exec i s = opBCS b s := by
  have e := exec_eq_byOp i s
  rw [h] at e
  obtain ⟨x, hx, hr⟩ := exec_onOperand e
  exact ⟨x, Operand.rel?_eq_some hx, hr⟩

theorem exec_BEQ {i : Instr} (h : i.op = .BEQ) (s : State) :
    ∃ b, i.operand = .rel b ∧ exec i s = opBEQ b s := by
  have e := exec_eq_byOp i s
  rw [h] at e
  obtain ⟨x, hx, hr⟩ := exec_onOperand e
  exact ⟨x, Operand.rel?_eq_some hx, hr⟩

theorem exec_BNE {i : Instr} (h : i.op = .BNE) (s : State) :
    ∃ b, i.operand = .rel b ∧ exec i s = opBNE b s := by
  have e := exec_eq_byOp i s
  rw [h] at e
  obtain ⟨x, hx, hr⟩ := exec_onOperand e
  exact ⟨x, Operand.rel?_eq_some hx, hr⟩

theorem exec_BPL {i : Instr} (h : i.op = .BPL) (s : State) :
    ∃ b, i.operand = .rel b ∧ exec i s = opBPL b s := by
  have e := exec_eq_byOp i s
  rw [h] at e
  obtain ⟨x, hx, hr⟩ := exec_onOperand e
  exact ⟨x, Operand.rel?_eq_some hx, hr⟩

theorem exec_BMI {i : Instr} (h : i.op = .BMI) (s : State) :
    ∃ b, i.operand = .rel b ∧ exec i s = opBMI b s := by
  have e := exec_eq_byOp i s
  rw [h] at e
  obtain ⟨x, hx, hr⟩ := exec_onOperand e
  exact ⟨x, Operand.rel?_eq_some hx, hr⟩

theorem exec_BVC {i : Instr} (h : i.op = .BVC) (s : State) :
    ∃ b, i.operand = .rel b ∧ exec i s = opBVC b s := by
  have e := exec_eq_byOp i s
  rw [h] at e
  obtain ⟨x, hx, hr⟩ := exec_onOperand e
  exact ⟨x, Operand.rel?_eq_some hx, hr⟩

theorem exec_BVS {i : Instr} (h : i.op = .BVS) (s : State) :
    ∃ b, i.operand = .rel b ∧ exec i s = opBVS b s := by
  have e := exec_eq_byOp i s
  rw [h] at e
  obtain ⟨x, hx, hr⟩ := exec_onOperand e
  exact ⟨x, Operand.rel?_eq_some hx, hr⟩

theorem exec_JMP {i : Instr} (h : i.op = .JMP) (s : State) :
    (∃ w, i.operand = .mem (.abs w) ∧ exec i s = opJMP w s) ∨
      ∃ w, i.operand = .ind w ∧ exec i s = opJMP (s.indirectTarget w) s := by
  have e := exec_eq_byOp i s
  rw [h] at e
  obtain ⟨f, hf, hr⟩ := exec_onOperand e
  obtain ⟨w, ho, rfl⟩ | ⟨w, ho, rfl⟩ := jumpTarget?_eq_some hf
  · exact .inl ⟨w, ho, hr⟩
  · exact .inr ⟨w, ho, hr⟩

theorem exec_JSR {i : Instr} (h : i.op = .JSR) (s : State) :
    ∃ w, i.operand = .mem (.abs w) ∧ exec i s = opJSR w s := by
  have e := exec_eq_byOp i s
  rw [h] at e
  obtain ⟨x, hx, hr⟩ := exec_onOperand e
  exact ⟨x, absTarget?_eq_some hx, hr⟩

theorem exec_RTS {i : Instr} (h : i.op = .RTS) (s : State) : exec i s = opRTS s := by
  have e := exec_eq_byOp i s
  rw [h] at e
  exact (Option.some.inj e).symm

theorem exec_RTI {i : Instr} (h : i.op = .RTI) (s : State) : exec i s = opRTI s := by
  have e := exec_eq_byOp i s
  rw [h] at e
  exact (Option.some.inj e).symm

theorem exec_PHA {i : Instr} (h : i.op = .PHA) (s : State) : exec i s = opPHA s := by
  have e := exec_eq_byOp i s
  rw [h] at e
  exact (Option.some.inj e).symm

theorem exec_PLA {i : Instr} (h : i.op = .PLA) (s : State) : exec i s = opPLA s := by
  have e := exec_eq_byOp i s
  rw [h] at e
  exact (Option.some.inj e).symm

theorem exec_PHP {i : Instr} (h : i.op = .PHP) (s : State) : exec i s = opPHP s := by
  have e := exec_eq_byOp i s
  rw [h] at e
  exact (Option.some.inj e).symm

theorem exec_PLP {i : Instr} (h : i.op = .PLP) (s : State) : exec i s = opPLP s := by
  have e := exec_eq_byOp i s
  rw [h] at e
  exact (Option.some.inj e).symm

theorem exec_BRK {i : Instr} (h : i.op = .BRK) (s : State) : exec i s = opBRK s := by
  have e := exec_eq_byOp i s
  rw [h] at e
  exact (Option.some.inj e).symm

theorem exec_NOP {i : Instr} (h : i.op = .NOP) (s : State) : exec i s = opNOP s := by
  have e := exec_eq_byOp i s
  rw [h] at e
  exact (Option.some.inj e).symm

theorem exec_LDA {i : Instr} (h : i.op = .LDA) (s : State) :
    ∃ src, i.operand = src.operand ∧ exec i s = opLDA src s := by
  have e := exec_eq_byOp i s
  rw [h] at e
  obtain ⟨x, hx, hr⟩ := exec_onOperand e
  exact ⟨x, Operand.source?_eq_some hx, hr⟩

theorem exec_LDX {i : Instr} (h : i.op = .LDX) (s : State) :
    ∃ src, i.operand = src.operand ∧ exec i s = opLDX src s := by
  have e := exec_eq_byOp i s
  rw [h] at e
  obtain ⟨x, hx, hr⟩ := exec_onOperand e
  exact ⟨x, Operand.source?_eq_some hx, hr⟩

theorem exec_LDY {i : Instr} (h : i.op = .LDY) (s : State) :
    ∃ src, i.operand = src.operand ∧ exec i s = opLDY src s := by
  have e := exec_eq_byOp i s
  rw [h] at e
  obtain ⟨x, hx, hr⟩ := exec_onOperand e
  exact ⟨x, Operand.source?_eq_some hx, hr⟩

theorem exec_STA {i : Instr} (h : i.op = .STA) (s : State) :
    ∃ m, i.operand = .mem m ∧ exec i s = opSTA m s := by
  have e := exec_eq_byOp i s
  rw [h] at e
  obtain ⟨x, hx, hr⟩ := exec_onOperand e
  exact ⟨x, Operand.mem?_eq_some hx, hr⟩

theorem exec_STX {i : Instr} (h : i.op = .STX) (s : State) :
    ∃ m, i.operand = .mem m ∧ exec i s = opSTX m s := by
  have e := exec_eq_byOp i s
  rw [h] at e
  obtain ⟨x, hx, hr⟩ := exec_onOperand e
  exact ⟨x, Operand.mem?_eq_some hx, hr⟩

theorem exec_STY {i : Instr} (h : i.op = .STY) (s : State) :
    ∃ m, i.operand = .mem m ∧ exec i s = opSTY m s := by
  have e := exec_eq_byOp i s
  rw [h] at e
  obtain ⟨x, hx, hr⟩ := exec_onOperand e
  exact ⟨x, Operand.mem?_eq_some hx, hr⟩

theorem exec_TAX {i : Instr} (h : i.op = .TAX) (s : State) : exec i s = opTAX s := by
  have e := exec_eq_byOp i s
  rw [h] at e
  exact (Option.some.inj e).symm

theorem exec_TAY {i : Instr} (h : i.op = .TAY) (s : State) : exec i s = opTAY s := by
  have e := exec_eq_byOp i s
  rw [h] at e
  exact (Option.some.inj e).symm

theorem exec_TXA {i : Instr} (h : i.op = .TXA) (s : State) : exec i s = opTXA s := by
  have e := exec_eq_byOp i s
  rw [h] at e
  exact (Option.some.inj e).symm

theorem exec_TYA {i : Instr} (h : i.op = .TYA) (s : State) : exec i s = opTYA s := by
  have e := exec_eq_byOp i s
  rw [h] at e
  exact (Option.some.inj e).symm

theorem exec_TSX {i : Instr} (h : i.op = .TSX) (s : State) : exec i s = opTSX s := by
  have e := exec_eq_byOp i s
  rw [h] at e
  exact (Option.some.inj e).symm

theorem exec_TXS {i : Instr} (h : i.op = .TXS) (s : State) : exec i s = opTXS s := by
  have e := exec_eq_byOp i s
  rw [h] at e
  exact (Option.some.inj e).symm

theorem exec_CLC {i : Instr} (h : i.op = .CLC) (s : State) : exec i s = opCLC s := by
  have e := exec_eq_byOp i s
  rw [h] at e
  exact (Option.some.inj e).symm

theorem exec_SEC {i : Instr} (h : i.op = .SEC) (s : State) : exec i s = opSEC s := by
  have e := exec_eq_byOp i s
  rw [h] at e
  exact (Option.some.inj e).symm

theorem exec_CLI {i : Instr} (h : i.op = .CLI) (s : State) : exec i s = opCLI s := by
  have e := exec_eq_byOp i s
  rw [h] at e
  exact (Option.some.inj e).symm

theorem exec_SEI {i : Instr} (h : i.op = .SEI) (s : State) : exec i s = opSEI s := by
  have e := exec_eq_byOp i s
  rw [h] at e
  exact (Option.some.inj e).symm

theorem exec_CLD {i : Instr} (h : i.op = .CLD) (s : State) : exec i s = opCLD s := by
  have e := exec_eq_byOp i s
  rw [h] at e
  exact (Option.some.inj e).symm

theorem exec_SED {i : Instr} (h : i.op = .SED) (s : State) : exec i s = opSED s := by
  have e := exec_eq_byOp i s
  rw [h] at e
  exact (Option.some.inj e).symm

theorem exec_CLV {i : Instr} (h : i.op = .CLV) (s : State) : exec i s = opCLV s := by
  have e := exec_eq_byOp i s
  rw [h] at e
  exact (Option.some.inj e).symm

/-- The (opcode, mode) pairs of a mnemonic: its rule's "Encoding" line. -/
def encodingLine : Op → List (Byte × Mode)
  | .ADC => [(0x69, .imm), (0x65, .zp), (0x75, .zpx), (0x6D, .abs), (0x7D, .absx), (0x79, .absy), (0x61, .indx), (0x71, .indy)]
  | .SBC => [(0xE9, .imm), (0xE5, .zp), (0xF5, .zpx), (0xED, .abs), (0xFD, .absx), (0xF9, .absy), (0xE1, .indx), (0xF1, .indy)]
  | .CMP => [(0xC9, .imm), (0xC5, .zp), (0xD5, .zpx), (0xCD, .abs), (0xDD, .absx), (0xD9, .absy), (0xC1, .indx), (0xD1, .indy)]
  | .CPX => [(0xE0, .imm), (0xE4, .zp), (0xEC, .abs)]
  | .CPY => [(0xC0, .imm), (0xC4, .zp), (0xCC, .abs)]
  | .INC => [(0xE6, .zp), (0xF6, .zpx), (0xEE, .abs), (0xFE, .absx)]
  | .DEC => [(0xC6, .zp), (0xD6, .zpx), (0xCE, .abs), (0xDE, .absx)]
  | .INX => [(0xE8, .imp)]
  | .INY => [(0xC8, .imp)]
  | .DEX => [(0xCA, .imp)]
  | .DEY => [(0x88, .imp)]
  | .AND => [(0x29, .imm), (0x25, .zp), (0x35, .zpx), (0x2D, .abs), (0x3D, .absx), (0x39, .absy), (0x21, .indx), (0x31, .indy)]
  | .ORA => [(0x09, .imm), (0x05, .zp), (0x15, .zpx), (0x0D, .abs), (0x1D, .absx), (0x19, .absy), (0x01, .indx), (0x11, .indy)]
  | .EOR => [(0x49, .imm), (0x45, .zp), (0x55, .zpx), (0x4D, .abs), (0x5D, .absx), (0x59, .absy), (0x41, .indx), (0x51, .indy)]
  | .BIT => [(0x24, .zp), (0x2C, .abs)]
  | .ASL => [(0x0A, .acc), (0x06, .zp), (0x16, .zpx), (0x0E, .abs), (0x1E, .absx)]
  | .LSR => [(0x4A, .acc), (0x46, .zp), (0x56, .zpx), (0x4E, .abs), (0x5E, .absx)]
  | .ROL => [(0x2A, .acc), (0x26, .zp), (0x36, .zpx), (0x2E, .abs), (0x3E, .absx)]
  | .ROR => [(0x6A, .acc), (0x66, .zp), (0x76, .zpx), (0x6E, .abs), (0x7E, .absx)]
  | .BCC => [(0x90, .rel)]
  | .BCS => [(0xB0, .rel)]
  | .BEQ => [(0xF0, .rel)]
  | .BNE => [(0xD0, .rel)]
  | .BPL => [(0x10, .rel)]
  | .BMI => [(0x30, .rel)]
  | .BVC => [(0x50, .rel)]
  | .BVS => [(0x70, .rel)]
  | .JMP => [(0x4C, .abs), (0x6C, .ind)]
  | .JSR => [(0x20, .abs)]
  | .RTS => [(0x60, .imp)]
  | .RTI => [(0x40, .imp)]
  | .PHA => [(0x48, .imp)]
  | .PLA => [(0x68, .imp)]
  | .PHP => [(0x08, .imp)]
  | .PLP => [(0x28, .imp)]
  | .BRK => [(0x00, .imp)]
  | .NOP => [(0xEA, .imp)]
  | .LDA => [(0xA9, .imm), (0xA5, .zp), (0xB5, .zpx), (0xAD, .abs), (0xBD, .absx), (0xB9, .absy), (0xA1, .indx), (0xB1, .indy)]
  | .LDX => [(0xA2, .imm), (0xA6, .zp), (0xB6, .zpy), (0xAE, .abs), (0xBE, .absy)]
  | .LDY => [(0xA0, .imm), (0xA4, .zp), (0xB4, .zpx), (0xAC, .abs), (0xBC, .absx)]
  | .STA => [(0x85, .zp), (0x95, .zpx), (0x8D, .abs), (0x9D, .absx), (0x99, .absy), (0x81, .indx), (0x91, .indy)]
  | .STX => [(0x86, .zp), (0x96, .zpy), (0x8E, .abs)]
  | .STY => [(0x84, .zp), (0x94, .zpx), (0x8C, .abs)]
  | .TAX => [(0xAA, .imp)]
  | .TAY => [(0xA8, .imp)]
  | .TXA => [(0x8A, .imp)]
  | .TYA => [(0x98, .imp)]
  | .TSX => [(0xBA, .imp)]
  | .TXS => [(0x9A, .imp)]
  | .CLC => [(0x18, .imp)]
  | .SEC => [(0x38, .imp)]
  | .CLI => [(0x58, .imp)]
  | .SEI => [(0x78, .imp)]
  | .CLD => [(0xD8, .imp)]
  | .SED => [(0xF8, .imp)]
  | .CLV => [(0xB8, .imp)]

/-- Every instruction's opcode and mode are on the line of its mnemonic. -/
theorem mem_encodingLine (i : Instr) : (i.opcode, i.mode) ∈ encodingLine i.op := by
  cases i <;> simp [Instr.opcode, Instr.op, Instr.mode, Instr.operand, Operand.mode, MemOperand.mode, encodingLine]

/-- What no instruction changes, where the outcome leaves PC, and which instruction raises `halted` (R39, R124, R254). -/
theorem exec_frame {i : Instr} {s t : State} (h : exec i s = .next t) :
    t.run = s.run ∧ t.count = s.count ∧ t.intervalCount = s.intervalCount ∧ t.backupPC = s.backupPC ∧
      t.paused = s.paused ∧ t.cfg = s.cfg ∧ t.draws = s.draws ∧ t.pending = s.pending ∧
      (t.suppress = false → t.pc = s.pc) ∧ t.halted = if i.op = .BRK then true else s.halted := by
  cases i <;> injection h with h <;> subst h <;> simp [Instr.op]
  all_goals (split <;> simp)

/-- `exec` answers a next state, always (R310). -/
theorem exec_next (i : Instr) (s : State) : ∃ t, exec i s = .next t := by
  cases i <;> exact ⟨_, rfl⟩

end Machine

end Sys2Proof
end

