-- ==== Sys2Proof/Machine/Instruments.lean ====
section
/-! DEFINITION. What the host reads of the machine without changing it: the screen buffer (R73, R327), the coredump (R332) and
the diff log (R333). The coredump and the log are given as data, not as text (log 34). -/

namespace Sys2Proof.Machine

/-! ## The screen buffer (R73) -/

/-- The address of pixel (col, row): `SCREEN_BASE + row*SCREEN_WIDTH + col`. -/
def State.pixelAddr (s : State) (col row : Nat) : Word :=
  s.cfg.screenBase + BitVec.ofNat 16 (row * s.cfg.screenWidth.toNat + col)

/-- The palette entry of a screen cell: the low 4 bits of its byte. -/
def State.pixel (s : State) (col row : Nat) : BitVec 4 := (s.readByte (s.pixelAddr col row)).setWidth 4

/-- The palette entry of the n-th cell of the screen buffer. -/
def State.screenCell (s : State) (n : Nat) : BitVec 4 :=
  (s.readByte (s.cfg.screenBase + BitVec.ofNat 16 n)).setWidth 4

/-- The cells the display redraws between two frames: those whose low 4 bits changed, or all after a full-redraw signal
(R327). DESIGN CHOICE (log 38): the two frames alone are compared, so a cell whose low 4 bits changed and changed back in
between is not redrawn. -/
def redrawnCells (before after : State) (fullRedraw : Bool) : List Nat :=
  (List.range after.cfg.screenCells.toNat).filter fun n => fullRedraw || before.screenCell n != after.screenCell n

/-! ## The coredump (R332) -/

/-- A register snapshot. -/
structure RegisterSnapshot where
  a : Byte
  x : Byte
  y : Byte
  sp : Byte
  pc : Word
  p : Byte
deriving DecidableEq, Repr

/-- The full register snapshot. -/
def State.snapshot (s : State) : RegisterSnapshot :=
  { a := s.a, x := s.x, y := s.y, sp := s.sp, pc := s.pc, p := s.p }

/-- The bytes of a contiguous range from `first` to `last`. DESIGN CHOICE (log 37): `last` is included, and a range with `last`
below `first` is empty and does not wrap. -/
def State.dumpRange (s : State) (first last : Word) : List Byte :=
  (List.range (last.toNat + 1 - first.toNat)).map fun n => s.readByte (first + BitVec.ofNat 16 n)

/-- The `count` rows of 16 bytes of a list. DESIGN CHOICE (log 39): the rows are counted from the list's first byte, whatever its
address, and the last row holds what is left. -/
def rowsOf16 : Nat → List Byte → List (List Byte)
  | 0, _ => []
  | n + 1, bytes => bytes.take 16 :: rowsOf16 n (bytes.drop 16)

/-- The range a coredump formats. DESIGN CHOICE (log 37): a command without a range dumps all of memory. -/
def dumpedRange (range : Option (Word × Word)) : Word × Word := range.getD (0x0000, 0xFFFF)

/-- A range of memory as rows of 16 bytes, then the register snapshot. -/
def State.dumpRows (s : State) (first last : Word) : List (List Byte) × RegisterSnapshot :=
  (rowsOf16 ((last.toNat + 1 - first.toNat + 15) / 16) (s.dumpRange first last), s.snapshot)

/-- What the command coredump gives, with or without an address range (R331, R332). -/
def State.coredump (s : State) (range : Option (Word × Word)) : List (List Byte) × RegisterSnapshot :=
  s.dumpRows (dumpedRange range).1 (dumpedRange range).2

/-! ## The diff log (R333) -/

/-- The registers the diff log names: AC, X, Y, SR. -/
inductive LoggedRegister where
  | AC
  | X
  | Y
  | SR
deriving DecidableEq, Repr

/-- One entry of the diff log. -/
inductive DiffEntry where
  | cell (count : Nat) (opcode : Byte) (backupPC addr : Word) (old new : Byte)
  | register (name : LoggedRegister) (old new : Byte)
deriving DecidableEq, Repr

/-- The entry of a cell, if it differs from the snapshot. The opcode is the byte at PC in `before`, the state the step was taken in,
and the count and the backup PC are those after the step (log 34, log 40). -/
def diffCell (snapshot before after : State) (n : Nat) : Option DiffEntry :=
  let addr := BitVec.ofNat 16 n
  let old := snapshot.readByte addr
  let new := after.readByte addr
  if old = new then none
  else some (.cell after.count (before.readByte before.pc) after.backupPC addr old new)

/-- The entry of a register, if it changed. -/
def diffRegister (name : LoggedRegister) (old new : Byte) : Option DiffEntry :=
  if old = new then none else some (.register name old new)

/-- The diff log of one step from `before` to `after`: every changed cell, then every changed register of AC, X, Y, SR.
DESIGN CHOICE (log 40): `snapshot`, "the previous step's snapshot", is the state at the end of the previous step, and for the
first step the state in which the program was loaded; so what a host action changed between the two steps is logged with the
later one. Cells come by rising address. -/
def diffLog (snapshot before after : State) : List DiffEntry :=
  (List.range 65536).filterMap (diffCell snapshot before after) ++
    [diffRegister .AC snapshot.a after.a, diffRegister .X snapshot.x after.x,
      diffRegister .Y snapshot.y after.y, diffRegister .SR snapshot.p after.p].filterMap id

end Sys2Proof.Machine
end

