-- ==== Sys2Proof/Machine/Run.lean ====
section
/-! DEFINITION. The end of a run and its final state (R336). -/

namespace Sys2Proof.Machine

/-- Is the run over in this state: `run` halted or stopped (R336)? -/
def State.ended (s : State) : Bool :=
  match s.run with
  | .idle => false
  | .running => false
  | .halted => true
  | .stopped => true

/-- The end of the run, if it comes within `k` moves: the first state that is over (R336). A program that never halts has no
end. -/
def firstEnd : Nat → State → Option State
  | 0, s => if s.ended then some s else none
  | k + 1, s =>
    if s.ended then some s
    else match step s with
      | .next t => firstEnd k t
      | .fault _ => none
      | .refused _ => none

/-- All 65536 cells as one canonical list, the entropy cell put back in its place (log 9). -/
def State.image (s : State) : Memory := s.mem.write s.cfg.entropyAddr.toNat s.entropy

/-- The final state of a run: "that state's registers and memory" (R336). -/
structure FinalState where
  registers : RegisterSnapshot
  memory : Memory
deriving DecidableEq, Repr

/-- The registers and the memory of a state. -/
def State.final (s : State) : FinalState := { registers := s.snapshot, memory := s.image }

/-- The final state of the run, if it ends within `k` moves. -/
def runResult (k : Nat) (s : State) : Option FinalState := (firstEnd k s).map State.final

end Sys2Proof.Machine
end

