-- ==== Sys2Proof/Safety.lean ====
section
/-! DEFINITION. The terms claims are stated in: the machine's invariant, a safe run, and the end of a run (R336). -/

namespace Sys2Proof

open Sys2Proof.Machine

/-- The list of cells leaves out the entropy cell, whose home is `State.entropy` (log 9). -/
def entropyUnlisted (s : State) : Bool := s.mem.all fun c => !decide (c.1 = s.cfg.entropyAddr.toNat)

/-- The invariant of the machine between steps. -/
structure Inv (s : State) : Prop where
  /-- The memory list is canonical, so equal memories are equal data. -/
  memoryCanonical : s.mem.wf = true
  /-- The entropy cell has one home. -/
  entropyOneHome : entropyUnlisted s = true
  /-- The configuration is one with which the process starts (R350). -/
  configWellFormed : s.cfg.wellFormed = true
  /-- The no-auto-advance signal never survives a step (R40). -/
  signalClear : s.suppress = false
  /-- `run = halted` exactly when `halted` is true and no quit was requested (R41). -/
  haltedExactly : s.run = .halted ↔ s.halted = true ∧ s.run ≠ .stopped
  /-- Nothing has executed in idle (R42, R354). -/
  idleUncounted : s.run = .idle → s.count = 0
  /-- P.B keeps bit 4 of `INIT_P` (R33). -/
  breakKept : s.flag .B = flagOf s.cfg.initP .B
  /-- P.U keeps bit 5 of `INIT_P` (R34). -/
  unusedKept : s.flag .U = flagOf s.cfg.initP .U
  /-- An interval's executed instructions are among all executed instructions (R42). -/
  intervalWithinCount : s.intervalCount ≤ s.count
  /-- No interval executes more instructions than the cap (R362). -/
  capRespected : ∀ limit, s.cfg.throttle = .cap limit → s.intervalCount ≤ limit

/-- A safe run: it meets no fault and no refusal, however long it is. -/
def SafeRun (s : State) : Prop := ∀ k, ∃ t, core.run k s = .next t

/-- A run is over in this state: `run` is halted or stopped (R336). -/
abbrev Ended (s : State) : Prop := s.ended = true

/-- The end of the run from `s` is `t`, after `k` moves: the FIRST state that is over (R336). `Sys2Proof.Machine.firstEnd` computes
it and `State.final` gives its registers and memory. -/
structure IsEndOfRun (s : State) (k : Nat) (t : State) : Prop where
  /-- `k` moves lead from `s` to `t`. -/
  reached : core.run k s = .next t
  /-- The run is over there. -/
  isOver : Ended t
  /-- It was not over before. -/
  first : ∀ j u, j < k → core.run j s = .next u → ¬ Ended u

end Sys2Proof
end

