-- ==== Sys2Proof/Laws/Step.lean ====
section
/-! SUPPORT. What a move of the machine can be: `step_cases` and `schedulerTick_cases` say it once, and invariants are derived from
them. Also the fields of a completed step, and the run lemma that packages an induction over moves. -/

namespace Sys2Proof.Machine

/-! ## A completed step -/

namespace State

/-- The fields of a completed step that it shares with the state the instruction left. -/
theorem completeStep_frame (s : State) (len : Nat) :
    (s.completeStep len).a = s.a ∧ (s.completeStep len).x = s.x ∧ (s.completeStep len).y = s.y ∧
      (s.completeStep len).sp = s.sp ∧ (s.completeStep len).p = s.p ∧ (s.completeStep len).mem = s.mem ∧
      (s.completeStep len).halted = s.halted ∧ (s.completeStep len).backupPC = s.backupPC ∧
      (s.completeStep len).cfg = s.cfg ∧ (s.completeStep len).pending = s.pending := by
  simp [completeStep]

theorem completeStep_cfg (s : State) (len : Nat) : (s.completeStep len).cfg = s.cfg := by simp [completeStep]
theorem completeStep_mem (s : State) (len : Nat) : (s.completeStep len).mem = s.mem := by simp [completeStep]
theorem completeStep_p (s : State) (len : Nat) : (s.completeStep len).p = s.p := by simp [completeStep]

theorem completeStep_pc (s : State) (len : Nat) :
    (s.completeStep len).pc = if s.suppress then s.pc else s.pc + BitVec.ofNat 16 len := by simp [completeStep]

theorem completeStep_suppress (s : State) (len : Nat) : (s.completeStep len).suppress = false := by simp [completeStep]

theorem completeStep_run (s : State) (len : Nat) :
    (s.completeStep len).run = if s.halted then .halted else s.run := by
  unfold completeStep
  rw [checkBreakpoint_run, settleHalt_run]
  rfl

theorem completeStep_count (s : State) (len : Nat) : (s.completeStep len).count = s.count + 1 := by simp [completeStep]

theorem completeStep_intervalCount (s : State) (len : Nat) :
    (s.completeStep len).intervalCount = s.intervalCount + 1 := by simp [completeStep]

theorem completeStep_draws (s : State) (len : Nat) : (s.completeStep len).draws = s.draws + 1 := by simp [completeStep]

/-- The entropy byte depends on the parameters and the draw index alone. -/
theorem entropyByte_congr {s t : State} (hc : t.cfg = s.cfg) (hd : t.draws = s.draws) :
    t.entropyByte = s.entropyByte := by simp [entropyByte, hc, hd]

/-- A completed step writes the entropy cell and no other (R75). -/
theorem readByte_completeStep (s : State) (len : Nat) (b : Word) :
    (s.completeStep len).readByte b = if b = s.cfg.entropyAddr then s.entropyByte else s.readByte b := by
  have he : (s.advancePC len).countStep.entropyByte = s.entropyByte := entropyByte_congr (by simp) (by simp)
  simp [completeStep, readByte_writeEntropy, he]

/-! ## A step at an undefined opcode -/

theorem undefinedStep_halt {s : State} (h : s.cfg.undefPolicy = .halt) :
    s.undefinedStep = { s with halted := true, run := .halted } := by
  simp only [undefinedStep, h, undefinedOpcode]
  rfl

theorem undefinedStep_nop {s : State} (h : s.cfg.undefPolicy = .nop) :
    s.undefinedStep =
      (({ s with pc := s.pc + BitVec.ofNat 16 s.cfg.undefAdvance }.countStep).writeEntropy).checkBreakpoint := by
  simp only [undefinedStep, h, undefinedOpcode]

end State

/-! ## The moves of the machine -/

/-- What a step of R123 does, when it answers: the policy at an empty slot, or the instruction and its completion. -/
theorem runInstruction_cases {s t : State} (h : runInstruction s = .next t) :
    (s.fetchInstr = none ∧ t = s.snapshotPC.undefinedStep) ∨
      ∃ i u, s.fetchInstr = some i ∧ exec i s.snapshotPC = .next u ∧ t = u.completeStep i.length := by
  unfold runInstruction at h
  cases hf : s.fetchInstr with
  | none => simp only [hf] at h; exact .inl ⟨rfl, by injection h with h; exact h.symm⟩
  | some i =>
    obtain ⟨u, hu⟩ := exec_next i s.snapshotPC
    simp only [hf, hu] at h
    exact .inr ⟨i, u, rfl, hu, by injection h with h; exact h.symm⟩

/-- A step of R123 answers a next state, always (R310). -/
theorem runInstruction_next (s : State) : ∃ t, runInstruction s = .next t := by
  unfold runInstruction
  cases s.fetchInstr with
  | none => exact ⟨_, rfl⟩
  | some i =>
    obtain ⟨u, hu⟩ := exec_next i s.snapshotPC
    simp only [hu]
    exact ⟨_, rfl⟩

/-- A scheduler tick answers a next state, always. -/
theorem schedulerTick_next (s : State) : ∃ t, schedulerTick s = .next t := by
  unfold schedulerTick
  cases s.run with
  | running =>
    by_cases hc : s.canStep = true
    · simpa only [hc, if_true] using runInstruction_next s
    · exact ⟨s, by simp [hc]⟩
  | idle => exact ⟨_, rfl⟩
  | halted => exact ⟨_, rfl⟩
  | stopped => exact ⟨_, rfl⟩

/-- A move answers a next state, always. -/
theorem step_next (s : State) : ∃ t, step s = .next t := by
  unfold step
  split
  · exact schedulerTick_next _
  · exact schedulerTick_next _
  · exact ⟨_, rfl⟩

/-- What a scheduler tick does, when it answers. -/
theorem schedulerTick_cases {s t : State} (h : schedulerTick s = .next t) :
    (s.run = .idle ∧ t = { s with run := .running }) ∨
      (s.run ≠ .idle ∧ s.canStep = false ∧ t = s) ∨
      (s.run = .running ∧ s.canStep = true ∧ runInstruction s = .next t) := by
  unfold schedulerTick at h
  cases hr : s.run with
  | idle => simp only [hr] at h; exact .inl ⟨rfl, by injection h with h; exact h.symm⟩
  | running =>
    by_cases hc : s.canStep = true
    · simp only [hr, hc, if_true] at h
      exact .inr (.inr ⟨rfl, hc, h⟩)
    · simp only [hr, hc] at h
      exact .inr (.inl ⟨by simp, by simpa using hc, by injection h with h; exact h.symm⟩)
  | halted => simp only [hr] at h; exact .inr (.inl ⟨by simp, by simp [State.canStep, hr], by injection h with h; exact h.symm⟩)
  | stopped => simp only [hr] at h; exact .inr (.inl ⟨by simp, by simp [State.canStep, hr], by injection h with h; exact h.symm⟩)

/-- What a move does, when it answers: a pending host action, or a tick of the state with the tick taken off. -/
theorem step_cases {s t : State} (h : step s = .next t) :
    (∃ e rest, s.pending = e :: rest ∧ e ≠ .tick ∧ t = { s with pending := rest }.hostAct e) ∨
      (s.pending = [] ∧ schedulerTick s = .next t) ∨
      ∃ rest, s.pending = .tick :: rest ∧ schedulerTick { s with pending := rest } = .next t := by
  unfold step at h
  split at h
  · exact .inr (.inl ⟨‹_›, h⟩)
  · exact .inr (.inr ⟨_, ‹_›, h⟩)
  · rename_i e rest hne hp
    exact .inl ⟨e, rest, hp, fun he => hne he, by injection h with h; exact h.symm⟩

/-- A tick of a running machine that may step is a step of R123. -/
theorem step_of_canStep {s : State} (hp : s.pending = []) (hc : s.canStep = true) : step s = runInstruction s := by
  have hr : s.run = .running := by
    simp only [State.canStep, Bool.and_eq_true, decide_eq_true_eq] at hc
    exact hc.1.1
  simp [step, hp, schedulerTick, hr, hc]

/-- A run of one more move is a move and then the run, on every machine. -/
theorem coreRun_succ (M : Host.Core) (k : Nat) (s t : M.State) (h : M.run (k + 1) s = .next t) :
    ∃ u, M.step s = .next u ∧ M.run k u = .next t := by
  rw [Host.Core.run] at h
  split at h
  · exact ⟨_, ‹_›, h⟩
  · simp at h
  · simp at h

/-- A run of one more move is a move and then the run. -/
theorem run_succ {k : Nat} {s t : State} (h : core.run (k + 1) s = .next t) :
    ∃ u, step s = .next u ∧ core.run k u = .next t := coreRun_succ core k s t h

/-- A run goes on from the state its first move answers, on every machine. -/
theorem coreRun_of_step (M : Host.Core) (k : Nat) (s u : M.State) (h : M.step s = .next u) :
    M.run (k + 1) s = M.run k u := by
  rw [Host.Core.run, h]

/-- A run goes on from the state its first move answers. -/
theorem run_of_step (k : Nat) {s u : State} (h : step s = .next u) : core.run (k + 1) s = core.run k u :=
  coreRun_of_step core k s u h

/-- A property every move keeps holds after every number of moves. -/
theorem run_keeps {P : State → Prop} (hstep : ∀ s t, P s → step s = .next t → P t) :
    ∀ k s t, P s → core.run k s = .next t → P t := by
  intro k
  induction k with
  | zero =>
    intro s t hs h
    injection h with h
    exact h ▸ hs
  | succ k ih =>
    intro s t hs h
    obtain ⟨u, hu, hrun⟩ := run_succ h
    exact ih u t (hstep s u hs hu) hrun

end Sys2Proof.Machine
end

