-- ==== Sys2Proof/Certificates/Slice0/Obligations.lean ====
section
/-! DEFINITION. The statements for the provers, from the rules of spec/. A docstring names the rules a statement formalises, and
the decision D<n>, the conflict C<n> or the log entry where it rests on one.

Reading them: an instruction is named by its mnemonic (`i.op = .LDA`), so a statement holds for every addressing mode the
mnemonic takes. `exec` answers the state at the end of the instruction's own semantics: the outcome `Advance` is the signal
clear with PC on the opcode, `Jump(t)` is the signal raised with PC on the target (R124), and the scheduler then ends the step
(`Obligations.ExecutedStepEffects`). An equation `t = { s with … }` says that every field it does not name is unchanged. -/

namespace Sys2Proof.Claims

open Sys2Proof.Machine

/-- The instruction's opcode and mode are among those of its rule's "Encoding" line. -/
def EncodedAs (i : Instr) (line : List (Byte × Mode)) : Prop := (i.opcode, i.mode) ∈ line

/-- Z and N are those of a result (R150). -/
def NZOf (t : State) (v : Byte) : Prop := t.flag .Z = decide (v = 0) ∧ t.flag .N = v.getLsbD 7

/-- Every flag but the written ones is unchanged. -/
def FlagsKept (s t : State) (written : List Flag) : Prop := ∀ f, f ∉ written → t.flag f = s.flag f

/-- Every byte of memory outside the stored cells is unchanged. -/
def MemoryKeptBut (s t : State) (stored : List Word) : Prop := ∀ addr, addr ∉ stored → t.readByte addr = s.readByte addr

/-- Every byte of memory is unchanged. -/
def MemoryKept (s t : State) : Prop := ∀ addr, t.readByte addr = s.readByte addr

/-- The next move of `s` is a scheduler tick, taken in `s'`: nothing is pending, or a tick is pending and taken off. -/
def TickOf (s s' : State) : Prop :=
  (s.pending = [] ∧ s' = s) ∨ ∃ rest, s.pending = .tick :: rest ∧ s' = { s with pending := rest }

/-- The next move of `s` is a given host action. -/
def NextIs (s : State) (e : HostEvent) : Prop := ∃ rest, s.pending = e :: rest

/-- An accumulator or read-modify-write form leaves its result in its target, the cell at its effective address or A, and beside
it changes only P and the step's signal (R104, R117). -/
def Wrote (s t : State) (dst : Target) (r : Byte) : Prop :=
  match dst with
  | .acc => MemoryKept s t ∧ t = { s with a := r, p := t.p, suppress := false }
  | .mem m => t.readByte (s.ea m) = r ∧ MemoryKeptBut s t [s.ea m] ∧
      t = { s with mem := t.mem, entropy := t.entropy, p := t.p, suppress := false }

/-- The opcode at PC is one whose step halts: BRK, or an undefined opcode under the policy `halt` (R39, R316). -/
def HaltingOpcode (s : State) : Prop := s.readByte s.pc = 0x00 ∨ s.fetchInstr = none ∧ s.cfg.undefPolicy = .halt

/-- The flag a branch tests and the value that takes it (R221 to R228). -/
def branchTest : Op → Option (Flag × Bool)
  | .BCC => some (.C, false)
  | .BCS => some (.C, true)
  | .BEQ => some (.Z, true)
  | .BNE => some (.Z, false)
  | .BPL => some (.N, false)
  | .BMI => some (.N, true)
  | .BVC => some (.V, false)
  | .BVS => some (.V, true)
  | _ => none

/-- The instruction is a branch whose condition holds. -/
def BranchTaken (o : Op) (s : State) : Prop := ∃ f v, branchTest o = some (f, v) ∧ s.flag f = v

/-- The pointer word at a zero-page address, with its second byte where `ZP_PTR_WRAP` puts it (R65). -/
def zpPointer (s : State) (p : Nat) : Nat :=
  (s.readByte (BitVec.ofNat 16 p)).toNat +
    256 * (s.readByte (BitVec.ofNat 16 (if s.cfg.zpPtrWrap then (p + 1) % 256 else p + 1))).toNat

/-- V is signed overflow: the exact signed result leaves -128 to 127 (R151). -/
def SignedOverflow (t : State) (exact : Int) : Prop := t.flag .V = decide (exact < -128 ∨ 127 < exact)

/-- The value of a two-digit BCD byte. -/
def bcdValue (v : Byte) : Nat := v.toNat / 16 * 10 + v.toNat % 16

/-- Both nibbles are decimal digits. -/
def BcdValid (v : Byte) : Prop := v.toNat / 16 ≤ 9 ∧ v.toNat % 16 ≤ 9

/-- The 105 undefined opcodes, as R121 lists them. -/
def undefinedOpcodes : List Byte :=
  [0x02, 0x03, 0x04, 0x07, 0x0B, 0x0C, 0x0F, 0x12, 0x13, 0x14, 0x17, 0x1A, 0x1B, 0x1C, 0x1F] ++
  [0x22, 0x23, 0x27, 0x2B, 0x2F, 0x32, 0x33, 0x34, 0x37, 0x3A, 0x3B, 0x3C, 0x3F] ++
  [0x42, 0x43, 0x44, 0x47, 0x4B, 0x4F, 0x52, 0x53, 0x54, 0x57, 0x5A, 0x5B, 0x5C, 0x5F] ++
  [0x62, 0x63, 0x64, 0x67, 0x6B, 0x6F, 0x72, 0x73, 0x74, 0x77, 0x7A, 0x7B, 0x7C, 0x7F] ++
  [0x80, 0x82, 0x83, 0x87, 0x89, 0x8B, 0x8F, 0x92, 0x93, 0x97, 0x9B, 0x9C, 0x9E, 0x9F] ++
  [0xA3, 0xA7, 0xAB, 0xAF, 0xB2, 0xB3, 0xB7, 0xBB, 0xBF] ++
  [0xC2, 0xC3, 0xC7, 0xCB, 0xCF, 0xD2, 0xD3, 0xD4, 0xD7, 0xDA, 0xDB, 0xDC, 0xDF] ++
  [0xE2, 0xE3, 0xE7, 0xEB, 0xEF, 0xF2, 0xF3, 0xF4, 0xF7, 0xFA, 0xFB, 0xFC, 0xFF]

end Sys2Proof.Claims

open Sys2Proof Sys2Proof.Machine Sys2Proof.Claims

/-! ## Encoding -/

/-- R100, R101, R119, R122: the bytes of any instruction decode to it, and the bytes after it are left over. -/
def Obligations.DecodeInvertsEncode : Prop := ∀ (i : Instr) (rest : List Byte), decode (encode i ++ rest) = .ok i rest

/-- R100, R101: what decodes to an instruction is its own encoding, so no two byte strings decode to one instruction. -/
def Obligations.EncodeInvertsDecode : Prop :=
  ∀ (bytes : List Byte) (i : Instr) (rest : List Byte), decode bytes = .ok i rest → bytes = encode i ++ rest

/-- R119, R121: exactly the 105 listed bytes have an empty slot, whatever follows them. -/
def Obligations.UndefinedOpcodesAreTheListed : Prop :=
  undefinedOpcodes.length = 105 ∧ undefinedOpcodes.Nodup ∧
    ∀ opcode b1 b2 : Byte, decodeInstr opcode b1 b2 = none ↔ opcode ∈ undefinedOpcodes

/-- R101, R120: words written out from the spec's encodings decode to the instructions they stand for. -/
def Obligations.WrittenOutWordsDecode : Prop :=
  decode [0x69, 0x50] = .ok (.adcImm 0x50) [] ∧ decode [0x2D, 0x34, 0x12] = .ok (.andAbs 0x1234) [] ∧
    decode [0xB1, 0x40] = .ok (.ldaIndY 0x40) [] ∧ decode [0x96, 0xF0] = .ok (.stxZpY 0xF0) [] ∧
    decode [0x6C, 0xFF, 0x10] = .ok (.jmpInd 0x10FF) [] ∧ decode [0xF0, 0xFE] = .ok (.beq 0xFE) [] ∧
    decode [0x00] = .ok .brk [] ∧ decode [0x6A] = .ok .rorAcc []

/-! ## The step -/

/-- R123: a tick of a running machine that is not withheld decodes the bytes at PC, executes that instruction with the backup
PC taken, and completes the step with the instruction's length. -/
def Obligations.StepRunsTheFetchedInstruction : Prop :=
  ∀ (s s' : State) (i : Instr) (rest : List Byte), TickOf s s' → s'.canStep = true →
    decode [s.readByte s.pc, s.readByte (s.pc + 1), s.readByte (s.pc + 2)] = .ok i rest →
    step s = match exec i { s' with backupPC := s.pc } with
      | .next t => .next (t.completeStep i.length)
      | .fault r => .fault r
      | .refused r => .refused r

/-- R26, R40, R42, R43, R75, R123: what an executed step leaves. PC is advanced by the length unless the signal was raised, and
wraps; the signal is clear; both counters rise by one; the entropy cell holds `ENTROPY_FIXED` or the step's draw and every
other byte is as the instruction left it; A, X, Y, SP, P and `halted` are as the instruction left them; the run state is halted
exactly when the instruction halted. The entropy byte of a step that is not deterministic is a free value (D19), and the draw
index it is read at, which rises by one, is the model's own counter (DESIGN CHOICE, log 8). The pause is the subject of
`Obligations.BreakpointsPauseAfterTheStep`. -/
def Obligations.ExecutedStepEffects : Prop :=
  ∀ (s s' t : State) (i : Instr), TickOf s s' → s'.canStep = true → s.fetchInstr = some i →
    exec i { s' with backupPC := s.pc } = .next t →
    ∃ u, step s = .next u ∧
      u.pc = (if t.suppress then t.pc else s.pc + BitVec.ofNat 16 i.length) ∧ u.suppress = false ∧
      u.count = s.count + 1 ∧ u.intervalCount = s.intervalCount + 1 ∧ u.backupPC = s.pc ∧
      u.readByte s.cfg.entropyAddr =
        (if s.cfg.deterministic then s.cfg.entropyFixed else Config.entropyDraw s.draws) ∧
      u.draws = s.draws + 1 ∧ MemoryKeptBut t u [s.cfg.entropyAddr] ∧
      u.a = t.a ∧ u.x = t.x ∧ u.y = t.y ∧ u.sp = t.sp ∧ u.p = t.p ∧ u.halted = t.halted ∧
      u.run = (if t.halted then .halted else .running) ∧ u.cfg = s.cfg ∧ u.pending = s'.pending

/-- R311, R312 (D9), R313 (D8): at an undefined opcode the policy `halt` changes only `halted` and `run`, beside the backup PC
that R123 snapshots first; under `nop` PC advances by `UNDEF_ADVANCE`, the step is counted, the entropy cell is written, and
registers, flags and all other memory are unchanged. The entropy byte of a step that is not deterministic is a free value (D19),
read at the model's own draw index (DESIGN CHOICE, log 8). -/
def Obligations.UndefinedOpcodesFollowThePolicy : Prop :=
  ∀ s s' : State, TickOf s s' → s'.canStep = true → s.fetchInstr = none →
    (s.cfg.undefPolicy = .halt → step s = .next { s' with backupPC := s.pc, halted := true, run := .halted }) ∧
    (s.cfg.undefPolicy = .nop →
      ∃ u, step s = .next u ∧ u.pc = s.pc + BitVec.ofNat 16 s.cfg.undefAdvance ∧ u.count = s.count + 1 ∧
        u.readByte s.cfg.entropyAddr =
          (if s.cfg.deterministic then s.cfg.entropyFixed else Config.entropyDraw s.draws) ∧
        MemoryKeptBut s u [s.cfg.entropyAddr] ∧ u.a = s.a ∧ u.x = s.x ∧ u.y = s.y ∧ u.sp = s.sp ∧ u.p = s.p ∧
        u.halted = s.halted ∧ u.run = .running)

/-- R310: no run of the machine, from any state and of any length, meets a fault or a refusal. -/
def Obligations.EveryRunIsSafe : Prop := ∀ s : State, SafeRun s

/-- The invariant (`Sys2Proof.Inv`: R33, R34, R40, R41, R42, R60, R362, logs 9 and 10) is kept by every move. -/
def Obligations.StepKeepsInvariant : Prop := ∀ s t : State, Inv s → step s = .next t → Inv t

/-- R350: the invariant holds at reset, and of every created instance whatever its parameters and its program. -/
def Obligations.ResetMeetsInvariant : Prop :=
  Inv State.reset ∧
    ∀ (cfg : Config) (image : List Byte), cfg.wellFormed = true → Inv (State.create cfg image)

/-- R45: no move changes a parameter. -/
def Obligations.StepKeepsParameters : Prop := ∀ s t : State, step s = .next t → t.cfg = s.cfg

/-- R33, R34: no move but a reset changes P.B or P.U. -/
def Obligations.BreakAndUnusedBitsAreNeverWritten : Prop :=
  ∀ s t : State, step s = .next t → ¬ NextIs s .reset → t.flag .B = s.flag .B ∧ t.flag .U = s.flag .U

/-- R39: `halted` is false at reset; it is set exactly by a step at a BRK and by one at an undefined opcode under the policy
`halt`; and only reset clears it. -/
def Obligations.HaltedSignalIsSetAndCleared : Prop :=
  (∀ cfg, (State.initial cfg).halted = false) ∧
    (∀ s t : State, step s = .next t → s.halted = false →
      (t.halted = true ↔ ∃ s', TickOf s s' ∧ s'.canStep = true ∧ HaltingOpcode s)) ∧
    ∀ s t : State, step s = .next t → s.halted = true → t.halted = false → NextIs s .reset

/-- R315: while halted, only a reset changes A, X, Y, SP, PC, P, `halted` or the count, no byte of memory but the keyboard cell
changes, no entropy draw is taken, and the run state stays halted unless a quit stops it. That no draw is taken is said of the
model's own draw index (DESIGN CHOICE, log 8). The pause, the interval count and the backup PC are not spoken of. -/
def Obligations.HaltedIsSticky : Prop :=
  ∀ s t : State, s.run = .halted → step s = .next t → ¬ NextIs s .reset →
    t.a = s.a ∧ t.x = s.x ∧ t.y = s.y ∧ t.sp = s.sp ∧ t.pc = s.pc ∧ t.p = s.p ∧ t.halted = s.halted ∧
      t.count = s.count ∧ t.draws = s.draws ∧ MemoryKeptBut s t [s.cfg.keyAddr] ∧
      ((t.run = .halted ∧ ¬ NextIs s .quit) ∨ (t.run = .stopped ∧ NextIs s .quit))

/-- R316, R318: `stopped` is terminal; a move only takes what is pending. That host actions change nothing there is log 15. -/
def Obligations.StoppedIsTerminal : Prop :=
  ∀ s : State, s.run = .stopped → step s = .next { s with pending := s.pending.tail }

/-- R316 (D3, D24), of states that meet the invariant: every change of the run state is a row of the table with its event, and
every row happens. The start delay's end takes idle to running; an enabled step ends halted exactly at a BRK or at an undefined
opcode under the policy `halt`, and otherwise running; a quit in idle, running or halted gives stopped; a reset in halted gives
idle. That a reset is also taken in idle and running is the model's choice (DESIGN CHOICE, log 14), and so is that a tick stands
for the end of the start delay (DESIGN CHOICE, log 12). The row of stopped is `Obligations.StoppedIsTerminal`. -/
def Obligations.RunStateChangesAreTheTables : Prop :=
  (∀ s t : State, Inv s → step s = .next t → t.run ≠ s.run →
    (s.run = .idle ∧ t.run = .running ∧ ∃ s', TickOf s s') ∨
      (s.run = .running ∧ t.run = .halted ∧ HaltingOpcode s ∧ ∃ s', TickOf s s' ∧ s'.canStep = true) ∨
      (s.run ≠ .stopped ∧ t.run = .stopped ∧ NextIs s .quit) ∨
      (s.run ≠ .stopped ∧ t.run = .idle ∧ NextIs s .reset)) ∧
    (∀ s s' : State, TickOf s s' → s.run = .idle → step s = .next { s' with run := .running }) ∧
    (∀ s s' : State, Inv s → TickOf s s' → s'.canStep = true → ∃ t, step s = .next t ∧
      (HaltingOpcode s → t.run = .halted) ∧ (¬ HaltingOpcode s → t.run = .running)) ∧
    (∀ (s : State) (rest : List HostEvent), s.run ≠ .stopped → s.pending = .quit :: rest →
      step s = .next { s with pending := rest, run := .stopped }) ∧
    ∀ (s : State) (rest : List HostEvent), s.run = .halted → s.pending = .reset :: rest →
      ∃ t, step s = .next t ∧ t.run = .idle

/-- R354 (D3): a reset gives registers, signals, run state and counters their reset values and leaves memory alone. R316 lists a
reset from halted only: that idle and running take it as well is the model's choice (DESIGN CHOICE, log 14). -/
def Obligations.HostResetRestoresRegistersOnly : Prop :=
  ∀ (s : State) (rest : List HostEvent), s.run ≠ .stopped → s.pending = .reset :: rest →
    ∃ t, step s = .next t ∧ t.a = s.cfg.initA ∧ t.x = s.cfg.initX ∧ t.y = s.cfg.initY ∧ t.sp = s.cfg.initSP ∧
      t.p = s.cfg.initP ∧ t.pc = s.cfg.loadOrigin ∧ t.halted = false ∧ t.suppress = false ∧ t.run = .idle ∧
      t.count = 0 ∧ t.intervalCount = 0 ∧ t.cfg = s.cfg ∧ MemoryKept s t ∧ t.mem = s.mem

/-- R44, R352 (D1, D2): a new instance holds the parameters' values and zeroed memory, and the reset state the defaults. -/
def Obligations.InitialStateHoldsTheParameters : Prop :=
  (∀ cfg, (State.initial cfg).a = cfg.initA ∧ (State.initial cfg).x = cfg.initX ∧ (State.initial cfg).y = cfg.initY ∧
    (State.initial cfg).sp = cfg.initSP ∧ (State.initial cfg).p = cfg.initP ∧ (State.initial cfg).pc = cfg.loadOrigin ∧
    (State.initial cfg).halted = false ∧ (State.initial cfg).run = .idle ∧ (State.initial cfg).count = 0 ∧
    (State.initial cfg).suppress = false ∧ ∀ addr, (State.initial cfg).readByte addr = 0x00) ∧
  State.reset.a = 0x00 ∧ State.reset.x = 0x00 ∧ State.reset.y = 0x00 ∧ State.reset.sp = 0xFF ∧ State.reset.p = 0x00 ∧
    State.reset.pc = 0x0600

/-! ## Whole-machine frames of the instructions -/

/-- R21, R22, R23, R27: the instructions that can change A, X, Y and SP. -/
def Obligations.RegisterWritersAreTheListed : Prop :=
  ∀ (i : Instr) (s t : State), exec i s = .next t →
    (t.a ≠ s.a → i.op ∈ [.ADC, .SBC, .AND, .ORA, .EOR, .LDA, .PLA, .TXA, .TYA] ∨
      i.mode = .acc ∧ i.op ∈ [.ASL, .LSR, .ROL, .ROR]) ∧
    (t.x ≠ s.x → i.op ∈ [.LDX, .TAX, .TSX, .INX, .DEX]) ∧
    (t.y ≠ s.y → i.op ∈ [.LDY, .TAY, .INY, .DEY]) ∧
    (t.sp ≠ s.sp → i.op ∈ [.TXS, .PHA, .PHP, .PLA, .PLP, .JSR, .RTS, .RTI])

/-- R29 to R36: the instructions that can change each flag; none changes B or U. -/
def Obligations.FlagWritersAreTheListed : Prop :=
  ∀ (i : Instr) (s t : State), exec i s = .next t →
    (t.flag .C ≠ s.flag .C →
      i.op ∈ [.ADC, .SBC, .CMP, .CPX, .CPY, .ASL, .LSR, .ROL, .ROR, .CLC, .SEC, .PLP, .RTI]) ∧
    (t.flag .I ≠ s.flag .I → i.op ∈ [.SEI, .CLI, .PLP, .RTI]) ∧
    (t.flag .D ≠ s.flag .D → i.op ∈ [.SED, .CLD, .PLP, .RTI]) ∧
    (t.flag .V ≠ s.flag .V → i.op ∈ [.ADC, .SBC, .BIT, .CLV, .PLP, .RTI]) ∧
    (t.flag .Z ≠ s.flag .Z ∨ t.flag .N ≠ s.flag .N →
      i.op ∈ [.LDA, .LDX, .LDY, .TAX, .TAY, .TXA, .TYA, .TSX, .PLA, .AND, .ORA, .EOR, .ADC, .SBC, .INC, .DEC, .INX, .INY,
        .DEX, .DEY, .ASL, .LSR, .ROL, .ROR, .CMP, .CPX, .CPY, .BIT, .PLP, .RTI]) ∧
    t.flag .B = s.flag .B ∧ t.flag .U = s.flag .U

/-- R67, R85: a byte of memory can change only at the effective address of a store or read-modify-write instruction, at the
byte PHA or PHP pushes, and at the two bytes JSR pushes. -/
def Obligations.MemoryWritersAreTheListed : Prop :=
  ∀ (i : Instr) (s t : State) (addr : Word), exec i s = .next t → t.readByte addr ≠ s.readByte addr →
    (i.op ∈ [.STA, .STX, .STY, .INC, .DEC, .ASL, .LSR, .ROL, .ROR] ∧ ∃ m, i.operand = .mem m ∧ addr = s.ea m) ∨
      (i.op ∈ [.PHA, .PHP] ∧ addr = 0x0100 + s.sp.setWidth 16) ∨
      (i.op = .JSR ∧ (addr = 0x0100 + s.sp.setWidth 16 ∨ addr = 0x0100 + (s.sp - 1).setWidth 16))

/-- R124: the outcome is `Jump(t)` exactly for JMP, JSR, RTS, RTI and a branch whose condition holds; every other outcome is
`Advance`, which leaves PC to the scheduler. -/
def Obligations.JumpOutcomesAreTheListed : Prop :=
  ∀ (i : Instr) (s t : State), exec i s = .next t →
    (t.suppress = true ↔ i.op ∈ [.JMP, .JSR, .RTS, .RTI] ∨ BranchTaken i.op s) ∧ (t.suppress = false → t.pc = s.pc)

/-! ## Memory and addressing -/

/-- R62, R63: a written byte is read back, every other byte is unchanged, and nothing but memory changes. -/
def Obligations.WritesAreReadBack : Prop :=
  ∀ (s : State) (addr : Word) (v : Byte), (s.writeByte addr v).readByte addr = v ∧
    MemoryKeptBut s (s.writeByte addr v) [addr] ∧
    s.writeByte addr v = { s with mem := (s.writeByte addr v).mem, entropy := (s.writeByte addr v).entropy }

/-- R70, R71 (C1, D4): a push writes one byte at 0x0100+SP and a pull returns it and restores SP. -/
def Obligations.PullReturnsThePushedByte : Prop :=
  ∀ (s : State) (v : Byte), (s.push v).pullByte = v ∧ (s.push v).pulled.sp = s.sp ∧ (s.push v).sp = s.sp - 1 ∧
    (s.push v).readByte (0x0100 + s.sp.setWidth 16) = v ∧ MemoryKeptBut s (s.push v) [0x0100 + s.sp.setWidth 16]

/-- R71, DOC §8 in E6 (C1, D4): 256 pushes, of any bytes, bring SP back to its starting value. -/
def Obligations.PushesWrapTheStackPointer : Prop :=
  ∀ (s : State) (vs : List Byte), vs.length = 256 → (vs.foldl State.push s).sp = s.sp

/-- R104, R106 to R109, R111, R112, R117: what the readers and writers of a mode reach, and the effective addresses of zero
page, indexed zero page and indexed absolute as arithmetic on numbers, with the modes' lengths. -/
def Obligations.OperandsAndDirectEffectiveAddresses : Prop :=
  ∀ (s : State) (b v : Byte) (w : Word) (m : MemOperand),
    s.readSource (.imm b) = b ∧ s.readSource (.mem m) = s.readByte (s.ea m) ∧ s.readTarget .acc = s.a ∧
    s.readTarget (.mem m) = s.readByte (s.ea m) ∧ s.writeTarget .acc v = { s with a := v } ∧
    (s.writeTarget (.mem m) v).readByte (s.ea m) = v ∧ MemoryKeptBut s (s.writeTarget (.mem m) v) [s.ea m] ∧
    Mode.acc.length = 1 ∧ (∀ i : Instr, i.mode = .acc → i.op ∈ [.ASL, .LSR, .ROL, .ROR]) ∧ Mode.imm.length = 2 ∧
    (s.ea (.zp b)).toNat = b.toNat ∧ Mode.zp.length = 2 ∧
    (s.ea (.zpx b)).toNat = (b.toNat + s.x.toNat) % 256 ∧ Mode.zpx.length = 2 ∧
    (s.ea (.zpy b)).toNat = (b.toNat + s.y.toNat) % 256 ∧ Mode.zpy.length = 2 ∧
    (∀ i : Instr, i.mode = .zpy → i.op = .LDX ∨ i.op = .STX) ∧
    (s.ea (.absx w)).toNat = (w.toNat + s.x.toNat) % 65536 ∧ Mode.absx.length = 3 ∧
    (s.ea (.absy w)).toNat = (w.toNat + s.y.toNat) % 65536 ∧ Mode.absy.length = 3

/-- R65, R110, R114, R115 (C8; both values of the parameter of D5): absolute is the word itself, and the indirect modes take
the pointer word in the zero page, whose second byte is read by `ZP_PTR_WRAP`. -/
def Obligations.IndirectEffectiveAddresses : Prop :=
  ∀ (s : State) (b : Byte) (w : Word), s.ea (.abs w) = w ∧
    (s.ea (.indx b)).toNat = zpPointer s ((b.toNat + s.x.toNat) % 256) ∧
    (s.ea (.indy b)).toNat = (zpPointer s b.toNat + s.y.toNat) % 65536

/-- R116: a branch's target is PC + 2 plus the signed offset, modulo 65536; the relative mode has length 2 and only the eight
branches use it. -/
def Obligations.RelativeTargets : Prop :=
  (∀ (pc : Word) (offset : Byte), ((branchTarget pc offset).toNat : Int) = (pc.toNat + 2 + offset.toInt) % 65536) ∧
    Mode.rel.length = 2 ∧ ∀ i : Instr, i.mode = .rel ↔ (branchTest i.op).isSome

/-! ## Loads, stores, transfers, flags -/

/-- R270, R271, R272: LDA, LDX and LDY load the operand and set N and Z from it. -/
def Obligations.LoadsSetTheRegisterAndNZ : Prop :=
  ∀ (i : Instr) (s : State),
    (i.op = .LDA → EncodedAs i [(0xA9, .imm), (0xA5, .zp), (0xB5, .zpx), (0xAD, .abs), (0xBD, .absx), (0xB9, .absy),
        (0xA1, .indx), (0xB1, .indy)] ∧
      ∃ src t, i.operand = src.operand ∧ exec i s = .next t ∧ t.a = s.readSource src ∧ NZOf t t.a ∧
        FlagsKept s t [.N, .Z] ∧ MemoryKept s t ∧ t = { s with a := t.a, p := t.p, suppress := false }) ∧
    (i.op = .LDX → EncodedAs i [(0xA2, .imm), (0xA6, .zp), (0xB6, .zpy), (0xAE, .abs), (0xBE, .absy)] ∧
      ∃ src t, i.operand = src.operand ∧ exec i s = .next t ∧ t.x = s.readSource src ∧ NZOf t t.x ∧
        FlagsKept s t [.N, .Z] ∧ MemoryKept s t ∧ t = { s with x := t.x, p := t.p, suppress := false }) ∧
    (i.op = .LDY → EncodedAs i [(0xA0, .imm), (0xA4, .zp), (0xB4, .zpx), (0xAC, .abs), (0xBC, .absx)] ∧
      ∃ src t, i.operand = src.operand ∧ exec i s = .next t ∧ t.y = s.readSource src ∧ NZOf t t.y ∧
        FlagsKept s t [.N, .Z] ∧ MemoryKept s t ∧ t = { s with y := t.y, p := t.p, suppress := false })

/-- R273, R274, R275: STA, STX and STY store the register at the effective address and write no flag. -/
def Obligations.StoresWriteTheEffectiveAddress : Prop :=
  ∀ (i : Instr) (s : State),
    (i.op = .STA → EncodedAs i [(0x85, .zp), (0x95, .zpx), (0x8D, .abs), (0x9D, .absx), (0x99, .absy), (0x81, .indx),
        (0x91, .indy)] ∧
      ∃ m t, i.operand = .mem m ∧ exec i s = .next t ∧ t.readByte (s.ea m) = s.a ∧ MemoryKeptBut s t [s.ea m] ∧
        t = { s with mem := t.mem, entropy := t.entropy, suppress := false }) ∧
    (i.op = .STX → EncodedAs i [(0x86, .zp), (0x96, .zpy), (0x8E, .abs)] ∧
      ∃ m t, i.operand = .mem m ∧ exec i s = .next t ∧ t.readByte (s.ea m) = s.x ∧ MemoryKeptBut s t [s.ea m] ∧
        t = { s with mem := t.mem, entropy := t.entropy, suppress := false }) ∧
    (i.op = .STY → EncodedAs i [(0x84, .zp), (0x94, .zpx), (0x8C, .abs)] ∧
      ∃ m t, i.operand = .mem m ∧ exec i s = .next t ∧ t.readByte (s.ea m) = s.y ∧ MemoryKeptBut s t [s.ea m] ∧
        t = { s with mem := t.mem, entropy := t.entropy, suppress := false })

/-- R276 to R280: TAX, TAY, TXA, TYA and TSX copy the register and set N and Z from it. -/
def Obligations.TransfersCopyAndSetNZ : Prop :=
  ∀ (i : Instr) (s : State),
    (i.op = .TAX → EncodedAs i [(0xAA, .imp)] ∧ ∃ t, exec i s = .next t ∧ t.x = s.a ∧ NZOf t t.x ∧
      FlagsKept s t [.N, .Z] ∧ MemoryKept s t ∧ t = { s with x := t.x, p := t.p, suppress := false }) ∧
    (i.op = .TAY → EncodedAs i [(0xA8, .imp)] ∧ ∃ t, exec i s = .next t ∧ t.y = s.a ∧ NZOf t t.y ∧
      FlagsKept s t [.N, .Z] ∧ MemoryKept s t ∧ t = { s with y := t.y, p := t.p, suppress := false }) ∧
    (i.op = .TXA → EncodedAs i [(0x8A, .imp)] ∧ ∃ t, exec i s = .next t ∧ t.a = s.x ∧ NZOf t t.a ∧
      FlagsKept s t [.N, .Z] ∧ MemoryKept s t ∧ t = { s with a := t.a, p := t.p, suppress := false }) ∧
    (i.op = .TYA → EncodedAs i [(0x98, .imp)] ∧ ∃ t, exec i s = .next t ∧ t.a = s.y ∧ NZOf t t.a ∧
      FlagsKept s t [.N, .Z] ∧ MemoryKept s t ∧ t = { s with a := t.a, p := t.p, suppress := false }) ∧
    (i.op = .TSX → EncodedAs i [(0xBA, .imp)] ∧ ∃ t, exec i s = .next t ∧ t.x = s.sp ∧ NZOf t t.x ∧
      FlagsKept s t [.N, .Z] ∧ MemoryKept s t ∧ t = { s with x := t.x, p := t.p, suppress := false })

/-- R281 (C4, D14): TXS copies X to SP and writes no flag and no memory. -/
def Obligations.TxsWritesNoFlag : Prop :=
  ∀ (i : Instr) (s : State), i.op = .TXS → EncodedAs i [(0x9A, .imp)] ∧
    exec i s = .next { s with sp := s.x, suppress := false }

/-- R282 to R288: each flag instruction writes exactly its one flag. -/
def Obligations.FlagInstructionsWriteOneFlag : Prop :=
  ∀ (i : Instr) (s : State) (o : Op) (code : Byte) (f : Flag) (v : Bool),
    (o, code, f, v) ∈ [(Op.CLC, 0x18, Flag.C, false), (.SEC, 0x38, .C, true), (.CLI, 0x58, .I, false),
      (.SEI, 0x78, .I, true), (.CLD, 0xD8, .D, false), (.SED, 0xF8, .D, true), (.CLV, 0xB8, .V, false)] →
    i.op = o → EncodedAs i [(code, .imp)] ∧ ∃ t, exec i s = .next t ∧ t.flag f = v ∧ FlagsKept s t [f] ∧
      MemoryKept s t ∧ t = { s with p := t.p, suppress := false }

/-! ## Logic, shifts, arithmetic -/

/-- R190, R191, R192: AND, ORA and EOR combine A with the operand bit by bit and set N and Z from the result. -/
def Obligations.LogicCombinesBitwise : Prop :=
  ∀ (i : Instr) (s : State),
    (i.op = .AND → EncodedAs i [(0x29, .imm), (0x25, .zp), (0x35, .zpx), (0x2D, .abs), (0x3D, .absx), (0x39, .absy),
        (0x21, .indx), (0x31, .indy)] ∧
      ∃ src t, i.operand = src.operand ∧ exec i s = .next t ∧
        (∀ k, t.a.getLsbD k = (s.a.getLsbD k && (s.readSource src).getLsbD k)) ∧ NZOf t t.a ∧
        FlagsKept s t [.N, .Z] ∧ MemoryKept s t ∧ t = { s with a := t.a, p := t.p, suppress := false }) ∧
    (i.op = .ORA → EncodedAs i [(0x09, .imm), (0x05, .zp), (0x15, .zpx), (0x0D, .abs), (0x1D, .absx), (0x19, .absy),
        (0x01, .indx), (0x11, .indy)] ∧
      ∃ src t, i.operand = src.operand ∧ exec i s = .next t ∧
        (∀ k, t.a.getLsbD k = (s.a.getLsbD k || (s.readSource src).getLsbD k)) ∧ NZOf t t.a ∧
        FlagsKept s t [.N, .Z] ∧ MemoryKept s t ∧ t = { s with a := t.a, p := t.p, suppress := false }) ∧
    (i.op = .EOR → EncodedAs i [(0x49, .imm), (0x45, .zp), (0x55, .zpx), (0x4D, .abs), (0x5D, .absx), (0x59, .absy),
        (0x41, .indx), (0x51, .indy)] ∧
      ∃ src t, i.operand = src.operand ∧ exec i s = .next t ∧
        (∀ k, t.a.getLsbD k = (s.a.getLsbD k ^^ (s.readSource src).getLsbD k)) ∧ NZOf t t.a ∧
        FlagsKept s t [.N, .Z] ∧ MemoryKept s t ∧ t = { s with a := t.a, p := t.p, suppress := false })

/-- R193: BIT sets Z from `A & m` and N and V from bits 7 and 6 of the memory byte; A and memory are not written. -/
def Obligations.BitTestsMemory : Prop :=
  ∀ (i : Instr) (s : State), i.op = .BIT → EncodedAs i [(0x24, .zp), (0x2C, .abs)] ∧
    ∃ m t, i.operand = .mem m ∧ exec i s = .next t ∧ t.flag .Z = decide (s.a &&& s.readByte (s.ea m) = 0) ∧
      t.flag .N = (s.readByte (s.ea m)).getLsbD 7 ∧ t.flag .V = (s.readByte (s.ea m)).getLsbD 6 ∧
      FlagsKept s t [.N, .Z, .V] ∧ MemoryKept s t ∧ t = { s with p := t.p, suppress := false }

/-- R104, R194, R195: ASL doubles modulo 256 with bit 7 to the carry, LSR halves with bit 0 to the carry, on A or on the one
memory cell at the effective address. -/
def Obligations.ShiftsMoveOneBit : Prop :=
  ∀ (i : Instr) (s : State),
    (i.op = .ASL → EncodedAs i [(0x0A, .acc), (0x06, .zp), (0x16, .zpx), (0x0E, .abs), (0x1E, .absx)] ∧
      ∃ (dst : Target) (t : State) (r : Byte), i.operand = dst.operand ∧ exec i s = .next t ∧
        r.toNat = 2 * (s.readTarget dst).toNat % 256 ∧ t.flag .C = decide (128 ≤ (s.readTarget dst).toNat) ∧
        NZOf t r ∧ FlagsKept s t [.C, .N, .Z] ∧ Wrote s t dst r) ∧
    (i.op = .LSR → EncodedAs i [(0x4A, .acc), (0x46, .zp), (0x56, .zpx), (0x4E, .abs), (0x5E, .absx)] ∧
      ∃ (dst : Target) (t : State) (r : Byte), i.operand = dst.operand ∧ exec i s = .next t ∧
        r.toNat = (s.readTarget dst).toNat / 2 ∧ t.flag .C = decide ((s.readTarget dst).toNat % 2 = 1) ∧
        NZOf t r ∧ t.flag .N = false ∧ FlagsKept s t [.C, .N, .Z] ∧
        Wrote s t dst r)

/-- R104, R196, R197: ROL and ROR shift through the carry: the previous carry enters the vacated bit. -/
def Obligations.RotatesGoThroughTheCarry : Prop :=
  ∀ (i : Instr) (s : State),
    (i.op = .ROL → EncodedAs i [(0x2A, .acc), (0x26, .zp), (0x36, .zpx), (0x2E, .abs), (0x3E, .absx)] ∧
      ∃ (dst : Target) (t : State) (r : Byte), i.operand = dst.operand ∧ exec i s = .next t ∧
        r.toNat = (2 * (s.readTarget dst).toNat + (s.flag .C).toNat) % 256 ∧
        t.flag .C = decide (128 ≤ (s.readTarget dst).toNat) ∧
        NZOf t r ∧ FlagsKept s t [.C, .N, .Z] ∧ Wrote s t dst r) ∧
    (i.op = .ROR → EncodedAs i [(0x6A, .acc), (0x66, .zp), (0x76, .zpx), (0x6E, .abs), (0x7E, .absx)] ∧
      ∃ (dst : Target) (t : State) (r : Byte), i.operand = dst.operand ∧ exec i s = .next t ∧
        r.toNat = (s.readTarget dst).toNat / 2 + 128 * (s.flag .C).toNat ∧
        t.flag .C = decide ((s.readTarget dst).toNat % 2 = 1) ∧ t.flag .N = s.flag .C ∧
        NZOf t r ∧ FlagsKept s t [.C, .N, .Z] ∧ Wrote s t dst r)

/-- R160, R161: INC and DEC change the one memory cell at the effective address by one modulo 256 and set N and Z from it. -/
def Obligations.IncAndDecChangeTheCellByOne : Prop :=
  ∀ (i : Instr) (s : State),
    (i.op = .INC → EncodedAs i [(0xE6, .zp), (0xF6, .zpx), (0xEE, .abs), (0xFE, .absx)] ∧
      ∃ (m : MemOperand) (t : State) (r : Byte), i.operand = .mem m ∧ exec i s = .next t ∧
        r.toNat = ((s.readByte (s.ea m)).toNat + 1) % 256 ∧ t.readByte (s.ea m) = r ∧ MemoryKeptBut s t [s.ea m] ∧
        NZOf t r ∧ FlagsKept s t [.N, .Z] ∧ t = { s with mem := t.mem, entropy := t.entropy, p := t.p, suppress := false }) ∧
    (i.op = .DEC → EncodedAs i [(0xC6, .zp), (0xD6, .zpx), (0xCE, .abs), (0xDE, .absx)] ∧
      ∃ (m : MemOperand) (t : State) (r : Byte), i.operand = .mem m ∧ exec i s = .next t ∧
        r.toNat = ((s.readByte (s.ea m)).toNat + 255) % 256 ∧ t.readByte (s.ea m) = r ∧ MemoryKeptBut s t [s.ea m] ∧
        NZOf t r ∧ FlagsKept s t [.N, .Z] ∧ t = { s with mem := t.mem, entropy := t.entropy, p := t.p, suppress := false })

/-- R162 to R165: INX, INY, DEX and DEY change the register by one modulo 256 and set N and Z from it. -/
def Obligations.IndexRegistersCountByOne : Prop :=
  ∀ (i : Instr) (s : State),
    (i.op = .INX → EncodedAs i [(0xE8, .imp)] ∧ ∃ t, exec i s = .next t ∧ t.x.toNat = (s.x.toNat + 1) % 256 ∧ NZOf t t.x ∧
      FlagsKept s t [.N, .Z] ∧ MemoryKept s t ∧ t = { s with x := t.x, p := t.p, suppress := false }) ∧
    (i.op = .INY → EncodedAs i [(0xC8, .imp)] ∧ ∃ t, exec i s = .next t ∧ t.y.toNat = (s.y.toNat + 1) % 256 ∧ NZOf t t.y ∧
      FlagsKept s t [.N, .Z] ∧ MemoryKept s t ∧ t = { s with y := t.y, p := t.p, suppress := false }) ∧
    (i.op = .DEX → EncodedAs i [(0xCA, .imp)] ∧ ∃ t, exec i s = .next t ∧ t.x.toNat = (s.x.toNat + 255) % 256 ∧ NZOf t t.x ∧
      FlagsKept s t [.N, .Z] ∧ MemoryKept s t ∧ t = { s with x := t.x, p := t.p, suppress := false }) ∧
    (i.op = .DEY → EncodedAs i [(0x88, .imp)] ∧ ∃ t, exec i s = .next t ∧ t.y.toNat = (s.y.toNat + 255) % 256 ∧ NZOf t t.y ∧
      FlagsKept s t [.N, .Z] ∧ MemoryKept s t ∧ t = { s with y := t.y, p := t.p, suppress := false })

/-- R151, R154 with the decimal flag clear: ADC is the 9-bit sum of A, the operand and the carry. Carry is its bit 8, and
overflow is set when the operands have one sign and the result the other, which is signed overflow. -/
def Obligations.AdcBinaryIsTheNineBitSum : Prop :=
  ∀ (i : Instr) (s : State), i.op = .ADC → s.flag .D = false →
    EncodedAs i [(0x69, .imm), (0x65, .zp), (0x75, .zpx), (0x6D, .abs), (0x7D, .absx), (0x79, .absy), (0x61, .indx),
      (0x71, .indy)] ∧
    ∃ src t sum, i.operand = src.operand ∧ exec i s = .next t ∧
      sum = s.a.toNat + (s.readSource src).toNat + (s.flag .C).toNat ∧ t.a.toNat = sum % 256 ∧
      t.flag .C = sum.testBit 8 ∧
      t.flag .V = (decide (s.a.getLsbD 7 = (s.readSource src).getLsbD 7) && decide (t.a.getLsbD 7 ≠ s.a.getLsbD 7)) ∧
      SignedOverflow t (s.a.toInt + (s.readSource src).toInt + (s.flag .C).toNat) ∧
      NZOf t t.a ∧ FlagsKept s t [.N, .Z, .C, .V] ∧ MemoryKept s t ∧ t = { s with a := t.a, p := t.p, suppress := false }

/-- R155 with the decimal flag clear: SBC subtracts the operand and the borrow 1 - C modulo 256. Carry means no borrow, and
overflow that the signed difference leaves -128 to 127. -/
def Obligations.SbcBinaryIsTheDifference : Prop :=
  ∀ (i : Instr) (s : State), i.op = .SBC → s.flag .D = false →
    EncodedAs i [(0xE9, .imm), (0xE5, .zp), (0xF5, .zpx), (0xED, .abs), (0xFD, .absx), (0xF9, .absy), (0xE1, .indx),
      (0xF1, .indy)] ∧
    ∃ src t, ∃ d e : Int, i.operand = src.operand ∧ exec i s = .next t ∧
      d = s.a.toNat - (s.readSource src).toNat - (!s.flag .C).toNat ∧
      e = s.a.toInt - (s.readSource src).toInt - (!s.flag .C).toNat ∧
      (t.a.toNat : Int) = d % 256 ∧ t.flag .C = decide (0 ≤ d) ∧ SignedOverflow t e ∧
      NZOf t t.a ∧ FlagsKept s t [.N, .Z, .C, .V] ∧ MemoryKept s t ∧ t = { s with a := t.a, p := t.p, suppress := false }

/-- R152, R154 with the decimal flag set (D11, D12): ADC adds nibble by nibble, a sum above 9 loses 10 and carries, for every
operand byte; N and Z come from the corrected result, and overflow is that of the binary sum. -/
def Obligations.AdcDecimalAddsByDigits : Prop :=
  ∀ (i : Instr) (s : State), i.op = .ADC → s.flag .D = true →
    ∃ src t, ∃ m lo hi : Nat, i.operand = src.operand ∧ exec i s = .next t ∧ m = (s.readSource src).toNat ∧
      lo = s.a.toNat % 16 + m % 16 + (s.flag .C).toNat ∧
      hi = s.a.toNat / 16 + m / 16 + (if 9 < lo then 1 else 0) ∧
      t.a.toNat = (if 9 < hi then hi - 10 else hi) % 16 * 16 + (if 9 < lo then lo - 10 else lo) % 16 ∧
      t.flag .C = decide (9 < hi) ∧ SignedOverflow t (s.a.toInt + (s.readSource src).toInt + (s.flag .C).toNat) ∧
      NZOf t t.a ∧ FlagsKept s t [.N, .Z, .C, .V] ∧ MemoryKept s t ∧ t = { s with a := t.a, p := t.p, suppress := false }

/-- R153, R155 with the decimal flag set (D11, D12, D13): SBC subtracts nibble by nibble, a negative difference gains 10 and
borrows, for every operand byte; overflow is that of the binary difference. -/
def Obligations.SbcDecimalSubtractsByDigits : Prop :=
  ∀ (i : Instr) (s : State), i.op = .SBC → s.flag .D = true →
    ∃ src t, ∃ m : Nat, ∃ lo hi e : Int, i.operand = src.operand ∧ exec i s = .next t ∧ m = (s.readSource src).toNat ∧
      lo = (s.a.toNat % 16 : Nat) - (m % 16 : Nat) - (!s.flag .C).toNat ∧
      hi = (s.a.toNat / 16 : Nat) - (m / 16 : Nat) - (if lo < 0 then 1 else 0) ∧
      e = s.a.toInt - (s.readSource src).toInt - (!s.flag .C).toNat ∧
      (t.a.toNat : Int) = (if hi < 0 then hi + 10 else hi) % 16 * 16 + (if lo < 0 then lo + 10 else lo) % 16 ∧
      t.flag .C = decide (0 ≤ hi) ∧ SignedOverflow t e ∧ NZOf t t.a ∧
      FlagsKept s t [.N, .Z, .C, .V] ∧ MemoryKept s t ∧ t = { s with a := t.a, p := t.p, suppress := false }

/-- R152, R153 on valid BCD operands, where "the rule is exact" (D11): decimal ADC and SBC are addition and subtraction of
two-digit numbers modulo 100, the result is valid BCD, and the carry is that of the two-digit operation. That SBC borrows the
complement of the carry and carries out the complement of its last borrow is D13 (DEDUCED, log 23). -/
def Obligations.DecimalArithmeticIsModulo100 : Prop :=
  ∀ (i : Instr) (s t : State) (src : Source), i.operand = src.operand → exec i s = .next t → s.flag .D = true →
    BcdValid s.a → BcdValid (s.readSource src) →
    (i.op = .ADC → BcdValid t.a ∧
      bcdValue t.a = (bcdValue s.a + bcdValue (s.readSource src) + (s.flag .C).toNat) % 100 ∧
      (t.flag .C = true ↔ 100 ≤ bcdValue s.a + bcdValue (s.readSource src) + (s.flag .C).toNat)) ∧
    (i.op = .SBC → BcdValid t.a ∧
      (bcdValue t.a : Int) = ((bcdValue s.a : Int) - bcdValue (s.readSource src) - (!s.flag .C).toNat) % 100 ∧
      (t.flag .C = true ↔ bcdValue (s.readSource src) + (!s.flag .C).toNat ≤ bcdValue s.a))

/-- R156 to R159 (D23): the compares set C when the register is at least the operand, unsigned, Z when they are equal, N from
bit 7 of the wrapped difference, and write nothing else. -/
def Obligations.ComparesSetNZC : Prop :=
  ∀ (i : Instr) (s : State) (o : Op) (reg : Byte) (line : List (Byte × Mode)),
    (o, reg, line) ∈ [(Op.CMP, s.a, [((0xC9 : Byte), Mode.imm), (0xC5, .zp), (0xD5, .zpx), (0xCD, .abs), (0xDD, .absx),
        (0xD9, .absy), (0xC1, .indx), (0xD1, .indy)]),
      (.CPX, s.x, [(0xE0, .imm), (0xE4, .zp), (0xEC, .abs)]), (.CPY, s.y, [(0xC0, .imm), (0xC4, .zp), (0xCC, .abs)])] →
    i.op = o → EncodedAs i line ∧
      ∃ src t, i.operand = src.operand ∧ exec i s = .next t ∧
        t.flag .C = decide ((s.readSource src).toNat ≤ reg.toNat) ∧ t.flag .Z = decide (reg = s.readSource src) ∧
        t.flag .N = decide (128 ≤ (reg.toNat + 256 - (s.readSource src).toNat) % 256) ∧
        FlagsKept s t [.N, .Z, .C] ∧ MemoryKept s t ∧ t = { s with p := t.p, suppress := false }

/-! ## Control flow -/

/-- R220 to R228: a branch jumps to its relative target exactly when its flag has its value, and otherwise advances; it writes
no flag and no memory. -/
def Obligations.BranchesTestTheirFlag : Prop :=
  ∀ (i : Instr) (s : State) (o : Op) (code : Byte) (f : Flag) (v : Bool),
    (o, code, f, v) ∈ [(Op.BCC, 0x90, Flag.C, false), (.BCS, 0xB0, .C, true), (.BEQ, 0xF0, .Z, true), (.BNE, 0xD0, .Z, false),
      (.BPL, 0x10, .N, false), (.BMI, 0x30, .N, true), (.BVC, 0x50, .V, false), (.BVS, 0x70, .V, true)] →
    i.op = o → EncodedAs i [(code, .rel)] ∧ ∃ offset, i.operand = .rel offset ∧
      exec i s = .next (if s.flag f = v then { s with pc := branchTarget s.pc offset, suppress := true }
        else { s with suppress := false })

/-- R113, R229 (C8; both values of the parameter of D6): JMP jumps to its word, or to the word stored at its pointer, whose
second byte is read at pointer+1 or at the start of the pointer's page; flags, memory and the stack are unchanged. -/
def Obligations.JmpJumpsToItsTarget : Prop :=
  ∀ (i : Instr) (s : State), i.op = .JMP → EncodedAs i [(0x4C, .abs), (0x6C, .ind)] ∧
    (∀ w, i.operand = .mem (.abs w) → exec i s = .next { s with pc := w, suppress := true }) ∧
    ∀ ptr, i.operand = .ind ptr → ∃ target : Word, exec i s = .next { s with pc := target, suppress := true } ∧
      target.toNat = (s.readByte ptr).toNat + 256 * (s.readByte (BitVec.ofNat 16
        (if s.cfg.jmpIndPageWrap then ptr.toNat / 256 * 256 + (ptr.toNat + 1) % 256 else ptr.toNat + 1))).toNat

/-- R230 (C1, C2, D4): JSR pushes the high and then the low byte of the address of its last byte and jumps to its target. -/
def Obligations.JsrPushesItsLastByteAddress : Prop :=
  ∀ (i : Instr) (s : State), i.op = .JSR → EncodedAs i [(0x20, .abs)] ∧
    ∃ target t, i.operand = .mem (.abs target) ∧ exec i s = .next t ∧ t.pc = target ∧ t.sp = s.sp - 2 ∧
      (t.readByte (0x0100 + s.sp.setWidth 16)).toNat = (s.pc.toNat + 2) % 65536 / 256 ∧
      (t.readByte (0x0100 + (s.sp - 1).setWidth 16)).toNat = (s.pc.toNat + 2) % 256 ∧
      MemoryKeptBut s t [0x0100 + s.sp.setWidth 16, 0x0100 + (s.sp - 1).setWidth 16] ∧
      t = { s with mem := t.mem, entropy := t.entropy, sp := t.sp, pc := t.pc, suppress := true }

/-- R231 (C1, D4): RTS pulls low then high and jumps to the word plus 1, modulo 65536. -/
def Obligations.RtsReturnsPastThePulledAddress : Prop :=
  ∀ (i : Instr) (s : State), i.op = .RTS → EncodedAs i [(0x60, .imp)] ∧
    ∃ t, exec i s = .next t ∧ t.sp = s.sp + 2 ∧
      t.pc.toNat = ((s.readByte (0x0100 + (s.sp + 1).setWidth 16)).toNat +
        256 * (s.readByte (0x0100 + (s.sp + 2).setWidth 16)).toNat + 1) % 65536 ∧
      MemoryKept s t ∧ t = { s with sp := t.sp, pc := t.pc, suppress := true }

/-- R232 (C1, D4): RTI pulls the status, keeping B and U, and then the address, low byte first, without adding 1. -/
def Obligations.RtiRestoresStatusAndPC : Prop :=
  ∀ (i : Instr) (s : State), i.op = .RTI → EncodedAs i [(0x40, .imp)] ∧
    ∃ t, exec i s = .next t ∧ t.sp = s.sp + 3 ∧
      (∀ f, t.flag f = if f = .B ∨ f = .U then s.flag f
        else flagOf (s.readByte (0x0100 + (s.sp + 1).setWidth 16)) f) ∧
      t.pc.toNat = (s.readByte (0x0100 + (s.sp + 2).setWidth 16)).toNat +
        256 * (s.readByte (0x0100 + (s.sp + 3).setWidth 16)).toNat ∧
      MemoryKept s t ∧ t = { s with sp := t.sp, pc := t.pc, p := t.p, suppress := true }

/-- R233, DOC §8 in E7 (C1, C2, D4): an RTS, executed with the two bytes of the stack that a JSR wrote as the JSR left them and SP
as the JSR left it, goes to the byte after the JSR and restores SP, wherever the call was and whatever the code at the target did
to the registers and to every other byte of memory. -/
def Obligations.RtsUndoesJsr : Prop :=
  ∀ (call ret : Instr) (s t u : State), call.op = .JSR → ret.op = .RTS → exec call s = .next t → u.sp = t.sp →
    u.readByte (0x0100 + s.sp.setWidth 16) = t.readByte (0x0100 + s.sp.setWidth 16) →
    u.readByte (0x0100 + (s.sp - 1).setWidth 16) = t.readByte (0x0100 + (s.sp - 1).setWidth 16) →
    ∃ v, exec ret u = .next v ∧ v.pc = s.pc + 3 ∧ v.sp = s.sp

/-! ## Stack instructions, BRK, NOP -/

/-- R250, R252 (C1, D4): PHA pushes A, PHP the status with B and U set; both write no flag and no other byte. -/
def Obligations.PushInstructionsWriteOneByte : Prop :=
  ∀ (i : Instr) (s : State),
    (i.op = .PHA → EncodedAs i [(0x48, .imp)] ∧ ∃ t, exec i s = .next t ∧ t.sp = s.sp - 1 ∧
      t.readByte (0x0100 + s.sp.setWidth 16) = s.a ∧ MemoryKeptBut s t [0x0100 + s.sp.setWidth 16] ∧
      t = { s with mem := t.mem, entropy := t.entropy, sp := t.sp, suppress := false }) ∧
    (i.op = .PHP → EncodedAs i [(0x08, .imp)] ∧ ∃ t, exec i s = .next t ∧ t.sp = s.sp - 1 ∧
      (∀ f, flagOf (t.readByte (0x0100 + s.sp.setWidth 16)) f = if f = .B ∨ f = .U then true else s.flag f) ∧
      MemoryKeptBut s t [0x0100 + s.sp.setWidth 16] ∧
      t = { s with mem := t.mem, entropy := t.entropy, sp := t.sp, suppress := false })

/-- R251, R253 (C1, D4): PLA pulls into A and sets N and Z, PLP pulls the status but for B and U; both write no memory. -/
def Obligations.PullInstructionsReadAboveSP : Prop :=
  ∀ (i : Instr) (s : State),
    (i.op = .PLA → EncodedAs i [(0x68, .imp)] ∧ ∃ t, exec i s = .next t ∧ t.sp = s.sp + 1 ∧
      t.a = s.readByte (0x0100 + (s.sp + 1).setWidth 16) ∧ NZOf t t.a ∧ FlagsKept s t [.N, .Z] ∧ MemoryKept s t ∧
      t = { s with a := t.a, p := t.p, sp := t.sp, suppress := false }) ∧
    (i.op = .PLP → EncodedAs i [(0x28, .imp)] ∧ ∃ t, exec i s = .next t ∧ t.sp = s.sp + 1 ∧
      (∀ f, t.flag f = if f = .B ∨ f = .U then s.flag f
        else flagOf (s.readByte (0x0100 + (s.sp + 1).setWidth 16)) f) ∧
      MemoryKept s t ∧ t = { s with p := t.p, sp := t.sp, suppress := false })

/-- R253: PHP followed by PLP leaves P and SP unchanged. -/
def Obligations.PlpUndoesPhp : Prop :=
  ∀ (push pull : Instr) (s t : State), push.op = .PHP → pull.op = .PLP → exec push s = .next t →
    ∃ u, exec pull t = .next u ∧ u.p = s.p ∧ u.sp = s.sp

/-- R255: NOP writes nothing and returns `Advance`. -/
def Obligations.NopOnlyAdvances : Prop :=
  ∀ (i : Instr) (s : State), i.op = .NOP → EncodedAs i [(0xEA, .imp)] ∧ exec i s = .next { s with suppress := false }

/-- R254, R314 (C5, D10): BRK sets `halted` and nothing else, and its step ends halted at the next byte, counted, with every
register and every byte but the entropy cell unchanged. -/
def Obligations.BrkHaltsAfterItsStep : Prop :=
  (∀ (i : Instr) (s : State), i.op = .BRK → EncodedAs i [(0x00, .imp)] ∧
    exec i s = .next { s with halted := true, suppress := false }) ∧
  ∀ s s' : State, TickOf s s' → s'.canStep = true → s.readByte s.pc = 0x00 →
    ∃ u, step s = .next u ∧ u.halted = true ∧ u.run = .halted ∧ u.pc = s.pc + 1 ∧ u.count = s.count + 1 ∧ u.a = s.a ∧
      u.x = s.x ∧ u.y = s.y ∧ u.sp = s.sp ∧ u.p = s.p ∧ MemoryKeptBut s u [s.cfg.entropyAddr]

/-! ## Host interface -/

/-- R362: with a cap of N executed instructions per interval, a tick at the cap (running, not paused) executes nothing. Below it
the step is enabled and is that of R123: it executes the instruction at PC and counts it, or applies the undefined-opcode policy,
which counts under `nop` and halts uncounted under `halt`. A new interval starts the count at 0. That the count is compared
before each tick and that a halt at an undefined opcode is not counted is the model's choice (DESIGN CHOICE, log 17). -/
def Obligations.ThrottleCapWithholdsSteps : Prop :=
  (∀ (s s' : State) (limit : Nat), TickOf s s' → s.run = .running → s.paused = false → s.cfg.throttle = .cap limit →
    (limit ≤ s.intervalCount → step s = .next s') ∧
    (s.intervalCount < limit → s'.canStep = true ∧ ∃ u, step s = .next u ∧
      match s.fetchInstr with
      | some i => u.intervalCount = s.intervalCount + 1 ∧
          ∃ t, exec i { s' with backupPC := s.pc } = .next t ∧ u = t.completeStep i.length
      | none => match s.cfg.undefPolicy with
        | .nop => u.intervalCount = s.intervalCount + 1 ∧ u.pc = s.pc + BitVec.ofNat 16 s.cfg.undefAdvance
        | .halt => u = { s' with backupPC := s.pc, halted := true, run := .halted })) ∧
    ∀ (s : State) (rest : List HostEvent), s.run ≠ .stopped → s.pending = .intervalStart :: rest →
      step s = .next { s with pending := rest, intervalCount := 0 }

/-- R330, R331 (log 16): a pause withholds every step, and after an executed step the machine is paused exactly when the
configured breakpoint triggers. -/
def Obligations.BreakpointsPauseAfterTheStep : Prop :=
  (∀ s s' : State, TickOf s s' → s.run = .running → s.paused = true → step s = .next s') ∧
  ∀ (s s' : State) (i : Instr), TickOf s s' → s'.canStep = true → s.fetchInstr = some i →
    ∃ u, step s = .next u ∧
      (u.paused = true ↔ match s.cfg.breakMode with
        | .off => False
        | .byAddress target => s.pc = target
        | .byCount target => s.count + 1 = target
        | .trapped => u.pc = s.pc
        | .singleStep => True)

/-- R74 (D20): a key press writes its code into the keyboard cell and changes no other byte and no register. -/
def Obligations.KeyPressWritesTheKeyboardCell : Prop :=
  ∀ (s : State) (code : Byte) (rest : List HostEvent), s.run ≠ .stopped → s.pending = .key code :: rest →
    ∃ t, step s = .next t ∧ t.readByte s.cfg.keyAddr = code ∧ MemoryKeptBut s t [s.cfg.keyAddr] ∧
      t = { s with mem := t.mem, entropy := t.entropy, pending := rest }

/-- R61, R351 (D27): a created machine's memory holds the image from `LOAD_ORIGIN` on, without wrapping, and zero elsewhere. -/
def Obligations.ProgramLoadCopiesTheImage : Prop :=
  ∀ (cfg : Config) (image : List Byte) (addr : Word),
    (State.create cfg image).readByte addr =
      if cfg.loadOrigin.toNat ≤ addr.toNat then image.getD (addr.toNat - cfg.loadOrigin.toNat) 0x00 else 0x00
end

