-- ==== Sys2Proof/Laws/Run.lean ====
section
/-! SUPPORT. `firstEnd` computes the end of a run (R336), and the final state's memory reads as the state does. -/

namespace Sys2Proof.Machine

/-- The image reads as the state does, the entropy cell included. -/
theorem read_image (s : State) (addr : Word) : s.image.read addr.toNat = s.readByte addr := by
  simp only [State.image, Memory.read_write, BitVec.toNat_inj]
  rfl

/-- The image is canonical, so final states are equal data when they read alike. -/
theorem wf_image {s : State} (h : s.mem.wf = true) : s.image.wf = true :=
  Memory.wf_write s.entropy h s.cfg.entropyAddr.isLt

theorem ended_iff (s : State) : Ended s ↔ s.run = .halted ∨ s.run = .stopped := by
  unfold Ended State.ended
  cases s.run <;> simp

theorem firstEnd_of_ended (k : Nat) {s : State} (h : Ended s) : firstEnd k s = some s := by
  have h' : s.ended = true := h
  cases k <;> simp [firstEnd, h']

theorem firstEnd_zero {s : State} (h : ¬ Ended s) : firstEnd 0 s = none := by
  have h' : ¬ s.ended = true := h
  simp [firstEnd, h']

theorem firstEnd_succ (k : Nat) {s u : State} (h : ¬ Ended s) (hu : step s = .next u) :
    firstEnd (k + 1) s = firstEnd k u := by
  have h' : ¬ s.ended = true := h
  simp [firstEnd, h', hu]

/-- A state that is over ends its own run. -/
theorem isEndOfRun_zero {s : State} (h : Ended s) : IsEndOfRun s 0 s :=
  ⟨rfl, h, fun _ _ hj => absurd hj (Nat.not_lt_zero _)⟩

/-- The end of the run from a state that is not over is the end of the run from its next state, one move later. -/
theorem isEndOfRun_succ {s u t : State} {k : Nat} (h : ¬ Ended s) (hu : step s = .next u) :
    IsEndOfRun s (k + 1) t ↔ IsEndOfRun u k t := by
  constructor
  · rintro ⟨hr, he, hf⟩
    refine ⟨(run_of_step k hu).symm.trans hr, he, fun j v hj hv => ?_⟩
    exact hf (j + 1) v (Nat.succ_lt_succ hj) ((run_of_step j hu).trans hv)
  · rintro ⟨hr, he, hf⟩
    refine ⟨(run_of_step k hu).trans hr, he, fun j v hj hv => ?_⟩
    cases j with
    | zero =>
      injection hv with hv
      exact hv ▸ h
    | succ j => exact hf j v (Nat.lt_of_succ_lt_succ hj) ((run_of_step j hu).symm.trans hv)

/-- `firstEnd` gives the end of the run, wherever it comes within its moves. -/
theorem firstEnd_eq_some (n : Nat) (s t : State) : firstEnd n s = some t ↔ ∃ k, k ≤ n ∧ IsEndOfRun s k t := by
  induction n generalizing s with
  | zero =>
    by_cases h : Ended s
    · rw [firstEnd_of_ended 0 h]
      constructor
      · intro ht
        exact ⟨0, Nat.le_refl 0, Option.some.inj ht ▸ isEndOfRun_zero h⟩
      · rintro ⟨k, hk, he⟩
        obtain rfl := Nat.le_zero.mp hk
        have hr := he.reached
        injection hr with hr
        exact congrArg some hr
    · rw [firstEnd_zero h]
      constructor
      · exact nofun
      · rintro ⟨k, hk, he⟩
        obtain rfl := Nat.le_zero.mp hk
        have hr := he.reached
        injection hr with hr
        exact absurd (hr ▸ he.isOver) h
  | succ n ih =>
    by_cases h : Ended s
    · rw [firstEnd_of_ended (n + 1) h]
      constructor
      · intro ht
        exact ⟨0, Nat.zero_le _, Option.some.inj ht ▸ isEndOfRun_zero h⟩
      · rintro ⟨k, _, he⟩
        cases k with
        | zero =>
          have hr := he.reached
          injection hr with hr
          exact congrArg some hr
        | succ k => exact absurd h (he.first 0 s (Nat.succ_pos k) rfl)
    · obtain ⟨u, hu⟩ := step_next s
      rw [firstEnd_succ n h hu, ih u]
      constructor
      · rintro ⟨k, hk, he⟩
        exact ⟨k + 1, Nat.succ_le_succ hk, (isEndOfRun_succ h hu).mpr he⟩
      · rintro ⟨k, hk, he⟩
        cases k with
        | zero =>
          have hr := he.reached
          injection hr with hr
          exact absurd (hr ▸ he.isOver) h
        | succ k => exact ⟨k, Nat.le_of_succ_le_succ hk, (isEndOfRun_succ h hu).mp he⟩

end Sys2Proof.Machine
end

