-- ==== Sys2Proof/Tests/Slice0.lean ====
section
/-! SUPPORT. The model's own tests: the checks of WellFormed, a word of every opcode-table row written out, one-step tests from the
spec's vectors (95_test_vectors.md), and a witness for the hypotheses of each statement. -/

namespace Sys2Proof.Tests

set_option Elab.async false

open Sys2Proof.Machine Sys2Proof.Claims

/-! ## WellFormed -/

/-- The parameters of a test: every open one is given a value. -/
def testConfig : Config :=
  { Config.default with
    undefPolicy := .halt
    deterministic := true
    entropyFixed := 0x00
    renderInterval := 1
    startDelay := 1 }

theorem test_wellFormed_accepts : testConfig.wellFormed = true := by decide
theorem test_wellFormed_accepts_advance_3 : { testConfig with undefAdvance := 3 }.wellFormed = true := by decide
theorem test_wellFormed_refuses_advance_0 : { testConfig with undefAdvance := 0 }.wellFormed = false := by decide
theorem test_wellFormed_refuses_advance_4 : { testConfig with undefAdvance := 4 }.wellFormed = false := by decide
theorem test_wellFormed_refuses_cap_0 : { testConfig with throttle := .cap 0 }.wellFormed = false := by decide
theorem test_wellFormed_refuses_rate_0 : { testConfig with throttle := .rate 0 }.wellFormed = false := by decide
theorem test_wellFormed_refuses_sta_immediate : legalPair .STA .imm = false := by decide
theorem test_wellFormed_refuses_brk_immediate : legalPair .BRK .imm = false := by decide
theorem test_wellFormed_accepts_sta_absolute : (Instr.staAbs 0x1234).wellFormed = true := by decide

/-! ## Decoding: the table of R120, with operand bytes 0x34 and 0x12 -/

theorem test_decode_arithmetic_1 :
    decode [0x69, 0x34] = .ok (.adcImm 0x34) [] ∧
    decode [0x65, 0x34] = .ok (.adcZp 0x34) [] ∧
    decode [0x75, 0x34] = .ok (.adcZpX 0x34) [] ∧
    decode [0x6D, 0x34, 0x12] = .ok (.adcAbs 0x1234) [] ∧
    decode [0x7D, 0x34, 0x12] = .ok (.adcAbsX 0x1234) [] ∧
    decode [0x79, 0x34, 0x12] = .ok (.adcAbsY 0x1234) [] ∧
    decode [0x61, 0x34] = .ok (.adcIndX 0x34) [] ∧
    decode [0x71, 0x34] = .ok (.adcIndY 0x34) [] ∧
    decode [0xE9, 0x34] = .ok (.sbcImm 0x34) [] ∧
    decode [0xE5, 0x34] = .ok (.sbcZp 0x34) [] ∧
    decode [0xF5, 0x34] = .ok (.sbcZpX 0x34) [] ∧
    decode [0xED, 0x34, 0x12] = .ok (.sbcAbs 0x1234) [] ∧
    decode [0xFD, 0x34, 0x12] = .ok (.sbcAbsX 0x1234) [] ∧
    decode [0xF9, 0x34, 0x12] = .ok (.sbcAbsY 0x1234) [] ∧
    decode [0xE1, 0x34] = .ok (.sbcIndX 0x34) [] ∧
    decode [0xF1, 0x34] = .ok (.sbcIndY 0x34) [] := by decide +kernel

theorem test_decode_arithmetic_2 :
    decode [0xC9, 0x34] = .ok (.cmpImm 0x34) [] ∧
    decode [0xC5, 0x34] = .ok (.cmpZp 0x34) [] ∧
    decode [0xD5, 0x34] = .ok (.cmpZpX 0x34) [] ∧
    decode [0xCD, 0x34, 0x12] = .ok (.cmpAbs 0x1234) [] ∧
    decode [0xDD, 0x34, 0x12] = .ok (.cmpAbsX 0x1234) [] ∧
    decode [0xD9, 0x34, 0x12] = .ok (.cmpAbsY 0x1234) [] ∧
    decode [0xC1, 0x34] = .ok (.cmpIndX 0x34) [] ∧
    decode [0xD1, 0x34] = .ok (.cmpIndY 0x34) [] ∧
    decode [0xE0, 0x34] = .ok (.cpxImm 0x34) [] ∧
    decode [0xE4, 0x34] = .ok (.cpxZp 0x34) [] ∧
    decode [0xEC, 0x34, 0x12] = .ok (.cpxAbs 0x1234) [] ∧
    decode [0xC0, 0x34] = .ok (.cpyImm 0x34) [] ∧
    decode [0xC4, 0x34] = .ok (.cpyZp 0x34) [] ∧
    decode [0xCC, 0x34, 0x12] = .ok (.cpyAbs 0x1234) [] ∧
    decode [0xE6, 0x34] = .ok (.incZp 0x34) [] ∧
    decode [0xF6, 0x34] = .ok (.incZpX 0x34) [] := by decide +kernel

theorem test_decode_arithmetic_3 :
    decode [0xEE, 0x34, 0x12] = .ok (.incAbs 0x1234) [] ∧
    decode [0xFE, 0x34, 0x12] = .ok (.incAbsX 0x1234) [] ∧
    decode [0xC6, 0x34] = .ok (.decZp 0x34) [] ∧
    decode [0xD6, 0x34] = .ok (.decZpX 0x34) [] ∧
    decode [0xCE, 0x34, 0x12] = .ok (.decAbs 0x1234) [] ∧
    decode [0xDE, 0x34, 0x12] = .ok (.decAbsX 0x1234) [] ∧
    decode [0xE8] = .ok .inx [] ∧
    decode [0xC8] = .ok .iny [] ∧
    decode [0xCA] = .ok .dex [] ∧
    decode [0x88] = .ok .dey [] := by decide +kernel

theorem test_decode_logic_1 :
    decode [0x29, 0x34] = .ok (.andImm 0x34) [] ∧
    decode [0x25, 0x34] = .ok (.andZp 0x34) [] ∧
    decode [0x35, 0x34] = .ok (.andZpX 0x34) [] ∧
    decode [0x2D, 0x34, 0x12] = .ok (.andAbs 0x1234) [] ∧
    decode [0x3D, 0x34, 0x12] = .ok (.andAbsX 0x1234) [] ∧
    decode [0x39, 0x34, 0x12] = .ok (.andAbsY 0x1234) [] ∧
    decode [0x21, 0x34] = .ok (.andIndX 0x34) [] ∧
    decode [0x31, 0x34] = .ok (.andIndY 0x34) [] ∧
    decode [0x09, 0x34] = .ok (.oraImm 0x34) [] ∧
    decode [0x05, 0x34] = .ok (.oraZp 0x34) [] ∧
    decode [0x15, 0x34] = .ok (.oraZpX 0x34) [] ∧
    decode [0x0D, 0x34, 0x12] = .ok (.oraAbs 0x1234) [] ∧
    decode [0x1D, 0x34, 0x12] = .ok (.oraAbsX 0x1234) [] ∧
    decode [0x19, 0x34, 0x12] = .ok (.oraAbsY 0x1234) [] ∧
    decode [0x01, 0x34] = .ok (.oraIndX 0x34) [] ∧
    decode [0x11, 0x34] = .ok (.oraIndY 0x34) [] := by decide +kernel

theorem test_decode_logic_2 :
    decode [0x49, 0x34] = .ok (.eorImm 0x34) [] ∧
    decode [0x45, 0x34] = .ok (.eorZp 0x34) [] ∧
    decode [0x55, 0x34] = .ok (.eorZpX 0x34) [] ∧
    decode [0x4D, 0x34, 0x12] = .ok (.eorAbs 0x1234) [] ∧
    decode [0x5D, 0x34, 0x12] = .ok (.eorAbsX 0x1234) [] ∧
    decode [0x59, 0x34, 0x12] = .ok (.eorAbsY 0x1234) [] ∧
    decode [0x41, 0x34] = .ok (.eorIndX 0x34) [] ∧
    decode [0x51, 0x34] = .ok (.eorIndY 0x34) [] ∧
    decode [0x24, 0x34] = .ok (.bitZp 0x34) [] ∧
    decode [0x2C, 0x34, 0x12] = .ok (.bitAbs 0x1234) [] ∧
    decode [0x0A] = .ok .aslAcc [] ∧
    decode [0x06, 0x34] = .ok (.aslZp 0x34) [] ∧
    decode [0x16, 0x34] = .ok (.aslZpX 0x34) [] ∧
    decode [0x0E, 0x34, 0x12] = .ok (.aslAbs 0x1234) [] ∧
    decode [0x1E, 0x34, 0x12] = .ok (.aslAbsX 0x1234) [] ∧
    decode [0x4A] = .ok .lsrAcc [] := by decide +kernel

theorem test_decode_logic_3 :
    decode [0x46, 0x34] = .ok (.lsrZp 0x34) [] ∧
    decode [0x56, 0x34] = .ok (.lsrZpX 0x34) [] ∧
    decode [0x4E, 0x34, 0x12] = .ok (.lsrAbs 0x1234) [] ∧
    decode [0x5E, 0x34, 0x12] = .ok (.lsrAbsX 0x1234) [] ∧
    decode [0x2A] = .ok .rolAcc [] ∧
    decode [0x26, 0x34] = .ok (.rolZp 0x34) [] ∧
    decode [0x36, 0x34] = .ok (.rolZpX 0x34) [] ∧
    decode [0x2E, 0x34, 0x12] = .ok (.rolAbs 0x1234) [] ∧
    decode [0x3E, 0x34, 0x12] = .ok (.rolAbsX 0x1234) [] ∧
    decode [0x6A] = .ok .rorAcc [] ∧
    decode [0x66, 0x34] = .ok (.rorZp 0x34) [] ∧
    decode [0x76, 0x34] = .ok (.rorZpX 0x34) [] ∧
    decode [0x6E, 0x34, 0x12] = .ok (.rorAbs 0x1234) [] ∧
    decode [0x7E, 0x34, 0x12] = .ok (.rorAbsX 0x1234) [] := by decide +kernel

theorem test_decode_control :
    decode [0x90, 0x34] = .ok (.bcc 0x34) [] ∧
    decode [0xB0, 0x34] = .ok (.bcs 0x34) [] ∧
    decode [0xF0, 0x34] = .ok (.beq 0x34) [] ∧
    decode [0xD0, 0x34] = .ok (.bne 0x34) [] ∧
    decode [0x10, 0x34] = .ok (.bpl 0x34) [] ∧
    decode [0x30, 0x34] = .ok (.bmi 0x34) [] ∧
    decode [0x50, 0x34] = .ok (.bvc 0x34) [] ∧
    decode [0x70, 0x34] = .ok (.bvs 0x34) [] ∧
    decode [0x4C, 0x34, 0x12] = .ok (.jmpAbs 0x1234) [] ∧
    decode [0x6C, 0x34, 0x12] = .ok (.jmpInd 0x1234) [] ∧
    decode [0x20, 0x34, 0x12] = .ok (.jsr 0x1234) [] ∧
    decode [0x60] = .ok .rts [] ∧
    decode [0x40] = .ok .rti [] := by decide +kernel

theorem test_decode_stack :
    decode [0x48] = .ok .pha [] ∧
    decode [0x68] = .ok .pla [] ∧
    decode [0x08] = .ok .php [] ∧
    decode [0x28] = .ok .plp [] ∧
    decode [0x00] = .ok .brk [] ∧
    decode [0xEA] = .ok .nop [] := by decide +kernel

theorem test_decode_transfer_1 :
    decode [0xA9, 0x34] = .ok (.ldaImm 0x34) [] ∧
    decode [0xA5, 0x34] = .ok (.ldaZp 0x34) [] ∧
    decode [0xB5, 0x34] = .ok (.ldaZpX 0x34) [] ∧
    decode [0xAD, 0x34, 0x12] = .ok (.ldaAbs 0x1234) [] ∧
    decode [0xBD, 0x34, 0x12] = .ok (.ldaAbsX 0x1234) [] ∧
    decode [0xB9, 0x34, 0x12] = .ok (.ldaAbsY 0x1234) [] ∧
    decode [0xA1, 0x34] = .ok (.ldaIndX 0x34) [] ∧
    decode [0xB1, 0x34] = .ok (.ldaIndY 0x34) [] ∧
    decode [0xA2, 0x34] = .ok (.ldxImm 0x34) [] ∧
    decode [0xA6, 0x34] = .ok (.ldxZp 0x34) [] ∧
    decode [0xB6, 0x34] = .ok (.ldxZpY 0x34) [] ∧
    decode [0xAE, 0x34, 0x12] = .ok (.ldxAbs 0x1234) [] ∧
    decode [0xBE, 0x34, 0x12] = .ok (.ldxAbsY 0x1234) [] ∧
    decode [0xA0, 0x34] = .ok (.ldyImm 0x34) [] ∧
    decode [0xA4, 0x34] = .ok (.ldyZp 0x34) [] ∧
    decode [0xB4, 0x34] = .ok (.ldyZpX 0x34) [] := by decide +kernel

theorem test_decode_transfer_2 :
    decode [0xAC, 0x34, 0x12] = .ok (.ldyAbs 0x1234) [] ∧
    decode [0xBC, 0x34, 0x12] = .ok (.ldyAbsX 0x1234) [] ∧
    decode [0x85, 0x34] = .ok (.staZp 0x34) [] ∧
    decode [0x95, 0x34] = .ok (.staZpX 0x34) [] ∧
    decode [0x8D, 0x34, 0x12] = .ok (.staAbs 0x1234) [] ∧
    decode [0x9D, 0x34, 0x12] = .ok (.staAbsX 0x1234) [] ∧
    decode [0x99, 0x34, 0x12] = .ok (.staAbsY 0x1234) [] ∧
    decode [0x81, 0x34] = .ok (.staIndX 0x34) [] ∧
    decode [0x91, 0x34] = .ok (.staIndY 0x34) [] ∧
    decode [0x86, 0x34] = .ok (.stxZp 0x34) [] ∧
    decode [0x96, 0x34] = .ok (.stxZpY 0x34) [] ∧
    decode [0x8E, 0x34, 0x12] = .ok (.stxAbs 0x1234) [] ∧
    decode [0x84, 0x34] = .ok (.styZp 0x34) [] ∧
    decode [0x94, 0x34] = .ok (.styZpX 0x34) [] ∧
    decode [0x8C, 0x34, 0x12] = .ok (.styAbs 0x1234) [] ∧
    decode [0xAA] = .ok .tax [] := by decide +kernel

theorem test_decode_transfer_3 :
    decode [0xA8] = .ok .tay [] ∧
    decode [0x8A] = .ok .txa [] ∧
    decode [0x98] = .ok .tya [] ∧
    decode [0xBA] = .ok .tsx [] ∧
    decode [0x9A] = .ok .txs [] ∧
    decode [0x18] = .ok .clc [] ∧
    decode [0x38] = .ok .sec [] ∧
    decode [0x58] = .ok .cli [] ∧
    decode [0x78] = .ok .sei [] ∧
    decode [0xD8] = .ok .cld [] ∧
    decode [0xF8] = .ok .sed [] ∧
    decode [0xB8] = .ok .clv [] := by decide +kernel

theorem test_decode_undefined : decode [0x02, 0x00, 0x00] = .undefinedOpcode 0x02 := by decide +kernel
theorem test_decode_truncated : decode [0x4C, 0x34] = .truncated 0x4C := by decide +kernel
theorem test_decode_no_bytes : decode [] = .empty := by decide +kernel
theorem test_encode_word_order : encode (.jmpAbs 0x1234) = [0x4C, 0x34, 0x12] := by decide +kernel

/-! ## One step, from the vectors V1 to V120 of 95_test_vectors.md -/

/-- A running machine at the default registers and zeroed memory. -/
def base : State := { State.initial testConfig with run := .running }

/-- A machine with cells poked in. -/
def cells (s : State) (l : List (Word × Byte)) : State := l.foldl (fun s c => s.writeByte c.1 c.2) s

/-- The next step answers a next state of which a property holds. -/
def steps (s : State) (p : State → Bool) : Bool :=
  match step s with
  | .next t => p t
  | .fault _ => false
  | .refused _ => false

theorem test_adc_V4 : steps (cells { base with a := 0x80 } [(0x0600, 0x69), (0x0601, 0x80)])
    (fun t => t.pc == 0x0602 && t.a == 0x00 && t.p == 0x43) = true := by decide +kernel
theorem test_adc_V14 : steps (cells { base with a := 0xFF, p := 0x08 } [(0x0600, 0x69), (0x0601, 0xFF)])
    (fun t => t.pc == 0x0602 && t.a == 0x54 && t.p == 0x09) = true := by decide +kernel
theorem test_sbc_V20 : steps (cells { base with a := 0x46, p := 0x09 } [(0x0600, 0xE9), (0x0601, 0x12)])
    (fun t => t.pc == 0x0602 && t.a == 0x34 && t.p == 0x09) = true := by decide +kernel
theorem test_sbc_V15 : steps (cells { base with a := 0x50, p := 0x01 } [(0x0600, 0xE9), (0x0601, 0xF0)])
    (fun t => t.pc == 0x0602 && t.a == 0x60 && t.p == 0x00) = true := by decide +kernel
theorem test_cmp_V25 : steps (cells { base with a := 0x10 } [(0x0600, 0xC9), (0x0601, 0x10)])
    (fun t => t.pc == 0x0602 && t.p == 0x03) = true := by decide +kernel
theorem test_cmp_V26 : steps (cells { base with a := 0x05 } [(0x0600, 0xC9), (0x0601, 0x10)])
    (fun t => t.pc == 0x0602 && t.p == 0x80) = true := by decide +kernel
theorem test_cpx_V31 : steps (cells base [(0x0600, 0xE0), (0x0601, 0x00)])
    (fun t => t.pc == 0x0602 && t.p == 0x03) = true := by decide +kernel
theorem test_cpx_V32 : steps (cells base [(0x0030, 0x01), (0x0600, 0xE4), (0x0601, 0x30)])
    (fun t => t.pc == 0x0602 && t.p == 0x80) = true := by decide +kernel
theorem test_cpy_V33 : steps (cells { base with y := 0xFF } [(0x1234, 0x7F), (0x0600, 0xCC), (0x0601, 0x34), (0x0602, 0x12)])
    (fun t => t.pc == 0x0603 && t.p == 0x81) = true := by decide +kernel
theorem test_inc_V34 : steps (cells base [(0x0010, 0xFF), (0x0600, 0xE6), (0x0601, 0x10)])
    (fun t => t.pc == 0x0602 && t.p == 0x02 && t.readByte 0x0010 == 0x00) = true := by decide +kernel
theorem test_inc_V35 : steps (cells { base with x := 0x01 } [(0x2001, 0x7F), (0x0600, 0xFE), (0x0601, 0x00), (0x0602, 0x20)])
    (fun t => t.pc == 0x0603 && t.p == 0x80 && t.readByte 0x2001 == 0x80) = true := by decide +kernel
theorem test_dec_V37 : steps (cells base [(0x0010, 0x00), (0x0600, 0xC6), (0x0601, 0x10)])
    (fun t => t.pc == 0x0602 && t.p == 0x80 && t.readByte 0x0010 == 0xFF) = true := by decide +kernel
theorem test_dec_V38 : steps (cells { base with x := 0xF1 } [(0x0001, 0x01), (0x0600, 0xD6), (0x0601, 0x10)])
    (fun t => t.pc == 0x0602 && t.p == 0x02 && t.readByte 0x0001 == 0x00) = true := by decide +kernel
theorem test_inx_V39 : steps (cells { base with x := 0xFF } [(0x0600, 0xE8)])
    (fun t => t.pc == 0x0601 && t.x == 0x00 && t.p == 0x02) = true := by decide +kernel
theorem test_iny_V40 : steps (cells { base with y := 0x7F } [(0x0600, 0xC8)])
    (fun t => t.pc == 0x0601 && t.y == 0x80 && t.p == 0x80) = true := by decide +kernel
theorem test_dex_V41 : steps (cells base [(0x0600, 0xCA)])
    (fun t => t.pc == 0x0601 && t.x == 0xFF && t.p == 0x80) = true := by decide +kernel
theorem test_dey_V42 : steps (cells { base with y := 0x01 } [(0x0600, 0x88)])
    (fun t => t.pc == 0x0601 && t.y == 0x00 && t.p == 0x02) = true := by decide +kernel
theorem test_and_V43 : steps (cells { base with a := 0xF0 } [(0x0600, 0x29), (0x0601, 0x3C)])
    (fun t => t.pc == 0x0602 && t.a == 0x30 && t.p == 0x00) = true := by decide +kernel
theorem test_and_V44 : steps (cells { base with a := 0x0F } [(0x0600, 0x29), (0x0601, 0xF0)])
    (fun t => t.pc == 0x0602 && t.a == 0x00 && t.p == 0x02) = true := by decide +kernel
theorem test_ora_V45 : steps (cells { base with a := 0x01 } [(0x0040, 0x80), (0x0600, 0x05), (0x0601, 0x40)])
    (fun t => t.pc == 0x0602 && t.a == 0x81 && t.p == 0x80) = true := by decide +kernel
theorem test_eor_V46 : steps (cells { base with a := 0xA5 } [(0x0600, 0x49), (0x0601, 0xA5)])
    (fun t => t.pc == 0x0602 && t.a == 0x00 && t.p == 0x02) = true := by decide +kernel
theorem test_eor_V47 : steps (cells { base with a := 0xFF } [(0x0600, 0x49), (0x0601, 0x0F)])
    (fun t => t.pc == 0x0602 && t.a == 0xF0 && t.p == 0x80) = true := by decide +kernel
theorem test_bit_V48 : steps (cells { base with a := 0x01 } [(0x0050, 0xC0), (0x0600, 0x24), (0x0601, 0x50)])
    (fun t => t.pc == 0x0602 && t.p == 0xC2) = true := by decide +kernel
theorem test_bit_V49 : steps (cells { base with a := 0xFF, p := 0xC2 } [(0x3000, 0x01), (0x0600, 0x2C), (0x0601, 0x00), (0x0602, 0x30)])
    (fun t => t.pc == 0x0603 && t.p == 0x00) = true := by decide +kernel
theorem test_asl_V50 : steps (cells { base with a := 0x81 } [(0x0600, 0x0A)])
    (fun t => t.pc == 0x0601 && t.a == 0x02 && t.p == 0x01) = true := by decide +kernel
theorem test_asl_V52 : steps (cells base [(0x0020, 0x40), (0x0600, 0x06), (0x0601, 0x20)])
    (fun t => t.pc == 0x0602 && t.p == 0x80 && t.readByte 0x0020 == 0x80) = true := by decide +kernel
theorem test_lsr_V53 : steps (cells base [(0x0020, 0x03), (0x0600, 0x46), (0x0601, 0x20)])
    (fun t => t.pc == 0x0602 && t.p == 0x01 && t.readByte 0x0020 == 0x01) = true := by decide +kernel
theorem test_lsr_V54 : steps (cells { base with a := 0x01, p := 0x80 } [(0x0600, 0x4A)])
    (fun t => t.pc == 0x0601 && t.a == 0x00 && t.p == 0x03) = true := by decide +kernel
theorem test_rol_V55 : steps (cells { base with a := 0x40, p := 0x01 } [(0x0600, 0x2A)])
    (fun t => t.pc == 0x0601 && t.a == 0x81 && t.p == 0x80) = true := by decide +kernel
theorem test_rol_V56 : steps (cells { base with a := 0x80 } [(0x0600, 0x2A)])
    (fun t => t.pc == 0x0601 && t.a == 0x00 && t.p == 0x03) = true := by decide +kernel
theorem test_ror_V57 : steps (cells { base with a := 0x01 } [(0x0600, 0x6A)])
    (fun t => t.pc == 0x0601 && t.a == 0x00 && t.p == 0x03) = true := by decide +kernel
theorem test_ror_V59 : steps (cells { base with x := 0x02, p := 0x01 } [(0x4002, 0x02), (0x0600, 0x7E), (0x0601, 0x00), (0x0602, 0x40)])
    (fun t => t.pc == 0x0603 && t.p == 0x80 && t.readByte 0x4002 == 0x81) = true := by decide +kernel
theorem test_bcc_V60 : steps (cells { base with pc := 0x0610 } [(0x0610, 0x90), (0x0611, 0x04)])
    (fun t => t.pc == 0x0616 && t.p == 0x00) = true := by decide +kernel
theorem test_bcs_V61 : steps (cells { base with p := 0x01, pc := 0x0610 } [(0x0610, 0xB0), (0x0611, 0xFA)])
    (fun t => t.pc == 0x060C && t.p == 0x01) = true := by decide +kernel
theorem test_bcs_V62 : steps (cells { base with pc := 0x0610 } [(0x0610, 0xB0), (0x0611, 0x04)])
    (fun t => t.pc == 0x0612 && t.p == 0x00) = true := by decide +kernel
theorem test_beq_V63 : steps (cells { base with p := 0x02 } [(0x0600, 0xF0), (0x0601, 0xFE)])
    (fun t => t.pc == 0x0600 && t.p == 0x02) = true := by decide +kernel
theorem test_beq_V64 : steps (cells { base with p := 0x02 } [(0x0600, 0xF0), (0x0601, 0x00)])
    (fun t => t.pc == 0x0602 && t.p == 0x02) = true := by decide +kernel
theorem test_bne_V65 : steps (cells { base with pc := 0x0605 } [(0x0605, 0xD0), (0x0606, 0xF9)])
    (fun t => t.pc == 0x0600 && t.p == 0x00) = true := by decide +kernel
theorem test_bpl_V66 : steps (cells base [(0x0600, 0x10), (0x0601, 0x7F)])
    (fun t => t.pc == 0x0681 && t.p == 0x00) = true := by decide +kernel
theorem test_bmi_V67 : steps (cells { base with p := 0x80 } [(0x0600, 0x30), (0x0601, 0x80)])
    (fun t => t.pc == 0x0582 && t.p == 0x80) = true := by decide +kernel
theorem test_bmi_V68 : steps (cells base [(0x0600, 0x30), (0x0601, 0x80)])
    (fun t => t.pc == 0x0602 && t.p == 0x00) = true := by decide +kernel
theorem test_bvc_V69 : steps (cells { base with pc := 0xFFF0 } [(0xFFF0, 0x50), (0xFFF1, 0x20)])
    (fun t => t.pc == 0x0012 && t.p == 0x00) = true := by decide +kernel
theorem test_bvs_V70 : steps (cells { base with p := 0x40, pc := 0x0000 } [(0x0000, 0x70), (0x0001, 0xF0)])
    (fun t => t.pc == 0xFFF2 && t.p == 0x40) = true := by decide +kernel
theorem test_jmp_V71 : steps (cells base [(0x0600, 0x4C), (0x0601, 0x34), (0x0602, 0x12)])
    (fun t => t.pc == 0x1234 && t.p == 0x00) = true := by decide +kernel
theorem test_jmp_V72 : steps (cells base [(0x0300, 0x00), (0x0301, 0x07), (0x0600, 0x6C), (0x0601, 0x00), (0x0602, 0x03)])
    (fun t => t.pc == 0x0700 && t.p == 0x00) = true := by decide +kernel
theorem test_jsr_V75 : steps (cells base [(0x0600, 0x20), (0x0601, 0x00), (0x0602, 0x07)])
    (fun t => t.pc == 0x0700 && t.sp == 0xFD && t.p == 0x00 && t.readByte 0x01FE == 0x02 && t.readByte 0x01FF == 0x06) = true := by decide +kernel
theorem test_jsr_V76 : steps (cells { base with sp := 0x00 } [(0x0600, 0x20), (0x0601, 0x00), (0x0602, 0x07)])
    (fun t => t.pc == 0x0700 && t.sp == 0xFE && t.p == 0x00 && t.readByte 0x0100 == 0x06 && t.readByte 0x01FF == 0x02) = true := by decide +kernel
theorem test_rts_V77 : steps (cells { base with sp := 0xFD, pc := 0x0700 } [(0x01FE, 0x02), (0x01FF, 0x06), (0x0700, 0x60)])
    (fun t => t.pc == 0x0603 && t.sp == 0xFF && t.p == 0x00) = true := by decide +kernel
theorem test_rts_V78 : steps (cells { base with sp := 0xFD, pc := 0x0700 } [(0x01FE, 0xFF), (0x01FF, 0xFF), (0x0700, 0x60)])
    (fun t => t.pc == 0x0000 && t.sp == 0xFF && t.p == 0x00) = true := by decide +kernel
theorem test_rti_V79 : steps (cells { base with sp := 0xFC, pc := 0x0700 } [(0x01FD, 0xC3), (0x01FE, 0x00), (0x01FF, 0x07), (0x0700, 0x40)])
    (fun t => t.pc == 0x0700 && t.sp == 0xFF && t.p == 0xC3) = true := by decide +kernel
theorem test_rti_V80 : steps (cells { base with sp := 0xFC, p := 0x30, pc := 0x0700 } [(0x01FD, 0x00), (0x01FE, 0x34), (0x01FF, 0x12), (0x0700, 0x40)])
    (fun t => t.pc == 0x1234 && t.sp == 0xFF && t.p == 0x30) = true := by decide +kernel
theorem test_pha_V81 : steps (cells { base with a := 0x5A } [(0x0600, 0x48)])
    (fun t => t.pc == 0x0601 && t.sp == 0xFE && t.p == 0x00 && t.readByte 0x01FF == 0x5A) = true := by decide +kernel
theorem test_pha_V82 : steps (cells { base with a := 0x5A, sp := 0x00 } [(0x0600, 0x48)])
    (fun t => t.pc == 0x0601 && t.sp == 0xFF && t.p == 0x00 && t.readByte 0x0100 == 0x5A) = true := by decide +kernel
theorem test_pla_V83 : steps (cells { base with sp := 0xFE } [(0x01FF, 0x80), (0x0600, 0x68)])
    (fun t => t.pc == 0x0601 && t.a == 0x80 && t.sp == 0xFF && t.p == 0x80) = true := by decide +kernel
theorem test_pla_V84 : steps (cells base [(0x0100, 0x00), (0x0600, 0x68)])
    (fun t => t.pc == 0x0601 && t.sp == 0x00 && t.p == 0x02) = true := by decide +kernel
theorem test_php_V85 : steps (cells { base with p := 0x01 } [(0x0600, 0x08)])
    (fun t => t.pc == 0x0601 && t.sp == 0xFE && t.p == 0x01 && t.readByte 0x01FF == 0x31) = true := by decide +kernel
theorem test_plp_V86 : steps (cells { base with sp := 0xFE } [(0x01FF, 0xFF), (0x0600, 0x28)])
    (fun t => t.pc == 0x0601 && t.sp == 0xFF && t.p == 0xCF) = true := by decide +kernel
theorem test_plp_V87 : steps (cells { base with sp := 0xFE, p := 0x30 } [(0x01FF, 0x00), (0x0600, 0x28)])
    (fun t => t.pc == 0x0601 && t.sp == 0xFF && t.p == 0x30) = true := by decide +kernel
theorem test_brk_V88 : steps (cells { base with pc := 0x0605 } [(0x0605, 0x00)])
    (fun t => t.pc == 0x0606 && t.p == 0x00 && t.halted && t.run == .halted) = true := by decide +kernel
theorem test_nop_V89 : steps (cells base [(0x0600, 0xEA)])
    (fun t => t.pc == 0x0601 && t.p == 0x00) = true := by decide +kernel
theorem test_lda_V90 : steps (cells base [(0x0600, 0xA9), (0x0601, 0x80)])
    (fun t => t.pc == 0x0602 && t.a == 0x80 && t.p == 0x80) = true := by decide +kernel
theorem test_lda_V92 : steps (cells { base with x := 0x20 } [(0x0010, 0x42), (0x0600, 0xB5), (0x0601, 0xF0)])
    (fun t => t.pc == 0x0602 && t.a == 0x42 && t.p == 0x00) = true := by decide +kernel
theorem test_ldx_V99 : steps (cells { base with x := 0x33, y := 0x05 } [(0x0015, 0x00), (0x0600, 0xB6), (0x0601, 0x10)])
    (fun t => t.pc == 0x0602 && t.x == 0x00 && t.p == 0x02) = true := by decide +kernel
theorem test_ldy_V100 : steps (cells { base with x := 0x01 } [(0x0201, 0xFE), (0x0600, 0xBC), (0x0601, 0x00), (0x0602, 0x02)])
    (fun t => t.pc == 0x0603 && t.y == 0xFE && t.p == 0x80) = true := by decide +kernel
theorem test_sta_V101 : steps (cells { base with a := 0x66, y := 0x01 } [(0x0060, 0xFF), (0x0061, 0x02), (0x0600, 0x91), (0x0601, 0x60)])
    (fun t => t.pc == 0x0602 && t.p == 0x00 && t.readByte 0x0300 == 0x66) = true := by decide +kernel
theorem test_sta_V102 : steps (cells { base with p := 0x80 } [(0x0600, 0x85), (0x0601, 0x10)])
    (fun t => t.pc == 0x0602 && t.p == 0x80) = true := by decide +kernel
theorem test_stx_V103 : steps (cells { base with x := 0x99, y := 0x20 } [(0x0600, 0x96), (0x0601, 0xF0)])
    (fun t => t.pc == 0x0602 && t.p == 0x00 && t.readByte 0x0010 == 0x99) = true := by decide +kernel
theorem test_sty_V104 : steps (cells { base with y := 0x12 } [(0x0600, 0x8C), (0x0601, 0x00), (0x0602, 0x03)])
    (fun t => t.pc == 0x0603 && t.p == 0x00 && t.readByte 0x0300 == 0x12) = true := by decide +kernel
theorem test_tax_V105 : steps (cells { base with a := 0x90 } [(0x0600, 0xAA)])
    (fun t => t.pc == 0x0601 && t.x == 0x90 && t.p == 0x80) = true := by decide +kernel
theorem test_tay_V106 : steps (cells { base with y := 0x07 } [(0x0600, 0xA8)])
    (fun t => t.pc == 0x0601 && t.y == 0x00 && t.p == 0x02) = true := by decide +kernel
theorem test_txa_V107 : steps (cells { base with x := 0x01, p := 0x82 } [(0x0600, 0x8A)])
    (fun t => t.pc == 0x0601 && t.a == 0x01 && t.p == 0x00) = true := by decide +kernel
theorem test_tya_V108 : steps (cells { base with y := 0xFF } [(0x0600, 0x98)])
    (fun t => t.pc == 0x0601 && t.a == 0xFF && t.p == 0x80) = true := by decide +kernel
theorem test_tsx_V109 : steps (cells { base with sp := 0xFD } [(0x0600, 0xBA)])
    (fun t => t.pc == 0x0601 && t.x == 0xFD && t.p == 0x80) = true := by decide +kernel
theorem test_txs_V110 : steps (cells base [(0x0600, 0x9A)])
    (fun t => t.pc == 0x0601 && t.sp == 0x00 && t.p == 0x00) = true := by decide +kernel
theorem test_txs_V111 : steps (cells { base with x := 0x80, p := 0x02 } [(0x0600, 0x9A)])
    (fun t => t.pc == 0x0601 && t.sp == 0x80 && t.p == 0x02) = true := by decide +kernel
theorem test_clc_V112 : steps (cells { base with p := 0xFF } [(0x0600, 0x18)])
    (fun t => t.pc == 0x0601 && t.p == 0xFE) = true := by decide +kernel
theorem test_sec_V113 : steps (cells base [(0x0600, 0x38)])
    (fun t => t.pc == 0x0601 && t.p == 0x01) = true := by decide +kernel
theorem test_cli_V114 : steps (cells { base with p := 0x04 } [(0x0600, 0x58)])
    (fun t => t.pc == 0x0601 && t.p == 0x00) = true := by decide +kernel
theorem test_sei_V115 : steps (cells base [(0x0600, 0x78)])
    (fun t => t.pc == 0x0601 && t.p == 0x04) = true := by decide +kernel
theorem test_cld_V116 : steps (cells { base with p := 0x08 } [(0x0600, 0xD8)])
    (fun t => t.pc == 0x0601 && t.p == 0x00) = true := by decide +kernel
theorem test_sed_V117 : steps (cells base [(0x0600, 0xF8)])
    (fun t => t.pc == 0x0601 && t.p == 0x08) = true := by decide +kernel
theorem test_clv_V118 : steps (cells { base with p := 0x40 } [(0x0600, 0xB8)])
    (fun t => t.pc == 0x0601 && t.p == 0x00) = true := by decide +kernel
theorem test_undefined_opcode_V119 : steps (cells { base with cfg := { testConfig with undefPolicy := .halt } } [(0x0600, 0x02)])
    (fun t => t.pc == 0x0600 && t.p == 0x00 && t.halted && t.run == .halted) = true := by decide +kernel
theorem test_undefined_opcode_V120 : steps (cells { base with cfg := { testConfig with undefPolicy := .nop } } [(0x0600, 0xFF)])
    (fun t => t.pc == 0x0601 && t.p == 0x00) = true := by decide +kernel

/-! ## The scheduler -/

theorem test_reset_first_tick : (match step State.reset with
    | .next t => t.run == .running && t.pc == 0x0600 && t.count == 0
    | .fault _ => false
    | .refused _ => false) = true := by decide +kernel

theorem test_halted_tick_skips : step { base with run := .halted, halted := true } =
    .next { base with run := .halted, halted := true } := rfl

theorem test_entropy_cell_is_written : steps { cells base [(0x0600, 0xEA)] with cfg := { testConfig with entropyFixed := 0x5A } }
    (fun t => t.readByte 0x00FE == 0x5A && t.count == 1) = true := by decide +kernel

theorem test_withFetchWord_runs : (match step (State.reset.withFetchWord 16 0x50A9) with
    | .next t => t.a == 0x50 && t.pc == 0x0602
    | .fault _ => false
    | .refused _ => false) = true := by decide +kernel

theorem test_trapped_breakpoint_on_branch_to_self : steps
    (cells { base with p := 0x02, cfg := { testConfig with breakMode := .trapped } } [(0x0600, 0xF0), (0x0601, 0xFE)])
    (fun t => t.paused && t.pc == 0x0600) = true := by decide +kernel

/-! ## What the host reads (R73, R332, R333) -/

theorem test_pixel_low_nibble : (cells base [(0x0221, 0xF5)]).pixel 1 1 = 0x5 := by decide +kernel

theorem test_coredump_rows :
    ((cells base [(0x0210, 0x07)]).coredump (some (0x0200, 0x0210))).1.map List.length = [16, 1] ∧
    ((cells base [(0x0210, 0x07)]).coredump (some (0x0200, 0x0210))).1.getLast? = some [0x07] := by decide +kernel

theorem test_coredump_without_range : dumpedRange none = (0x0000, 0xFFFF) ∧ dumpedRange (some (0x10, 0x20)) = (0x10, 0x20) := by
  decide

theorem test_coredump_command_changes_nothing : ∀ range ∈ [none, some ((0x0200 : Word), (0x0210 : Word))],
    base.actOn (.coredump range) = base := fun _ _ => rfl

theorem test_diff_entry : diffCell base (cells base [(0x0600, 0x85)])
    ({ cells base [(0x0600, 0x85), (0x0010, 0x07)] with count := 1, backupPC := 0x0600 }) 0x10 =
      some (.cell 1 0x85 0x0600 0x0010 0x00 0x07) := by decide +kernel

/-- A key pressed between two steps is in neither step's own effect, and the log of the later step shows it (log 40). -/
theorem test_diff_shows_the_host_write : diffCell base (cells base [(0x00FF, 0x41), (0x0600, 0xEA)])
    ({ cells base [(0x00FF, 0x41), (0x0600, 0xEA)] with count := 1, backupPC := 0x0600 }) 0xFF =
      some (.cell 1 0xEA 0x0600 0x00FF 0x00 0x41) := by decide +kernel

/-! ## The end of a run (R336) -/

/-- A NOP and a BRK at 0x0600, with a key pressed after they have run. -/
def nopBrkKey : State :=
  { cells base [(0x0600, 0xEA), (0x0601, 0x00)] with pending := [.tick, .tick, .key 0x41], cfg := { testConfig with keyAddr := 0x0010 } }

theorem test_end_of_run_is_the_first_halted_state :
    (runResult 3 nopBrkKey).map (fun f => (f.registers.pc, f.memory)) = some (0x0602, [(0x0600, 0xEA)]) ∧
      (firstEnd 3 nopBrkKey).map State.pending = some [.key 0x41] := by decide +kernel

theorem test_no_end_before_the_halt : firstEnd 1 nopBrkKey = none ∧ ¬ Ended nopBrkKey := ⟨by decide +kernel, by decide⟩

theorem test_image_holds_the_entropy_cell :
    ({ cells base [(0x00FD, 0x01)] with entropy := 0x5A } : State).image = [(0x00FD, 0x01), (0x00FE, 0x5A)] := by decide +kernel

/-! ## Memory stays canonical -/

theorem test_memory_zero_unlists : ((cells base [(0x0010, 0x07), (0x0010, 0x00)]).mem = []) := by decide +kernel

theorem test_memory_sorted : (cells base [(0x0020, 0x02), (0x0010, 0x01)]).mem = [(0x10, 0x01), (0x20, 0x02)] := by
  decide +kernel

/-! ## Witnesses: each meets every hypothesis of the statement it is named after -/

/-- A running machine with the bytes of an instruction at PC. -/
def at0600 (bytes : List (Word × Byte)) : State := cells base bytes

/-- A machine in which a key, a reset or another host action is pending. -/
def withPending (s : State) (events : List HostEvent) : State := { s with pending := events }

theorem nothing_pending {s : State} (h : s.pending = []) : TickOf s s := .inl ⟨h, rfl⟩

theorem not_next {s : State} {e : HostEvent} (h : s.pending = []) : ¬ NextIs s e := fun ⟨_, hr⟩ => by
  rw [h] at hr
  exact nomatch hr

theorem witness_EncodeInvertsDecode : decode [0x4C, 0x34, 0x12, 0xFF] = .ok (.jmpAbs 0x1234) [0xFF] ∧
    decode [0xEA] = .ok .nop [] ∧ decode [0xA9, 0xFF] = .ok (.ldaImm 0xFF) [] := by decide +kernel

theorem witness_StepRunsTheFetchedInstruction :
    (∃ (s s' : State) (i : Instr) (rest : List Byte), TickOf s s' ∧ s'.canStep = true ∧
      decode [s.readByte s.pc, s.readByte (s.pc + 1), s.readByte (s.pc + 2)] = .ok i rest) ∧
    ∃ (s s' : State) (i : Instr) (rest : List Byte), s.pc = 0xFFFF ∧ TickOf s s' ∧ s.pending ≠ [] ∧ s'.canStep = true ∧
      decode [s.readByte s.pc, s.readByte (s.pc + 1), s.readByte (s.pc + 2)] = .ok i rest :=
  ⟨⟨at0600 [(0x0600, 0xA9), (0x0601, 0x80)], _, .ldaImm 0x80, [0x00], nothing_pending rfl, by decide +kernel, by decide +kernel⟩,
    withPending { at0600 [(0xFFFF, 0x4C), (0x0001, 0x06)] with pc := 0xFFFF } [.tick], _, .jmpAbs 0x0600, [], rfl,
      .inr ⟨[], rfl, rfl⟩, by decide, by decide +kernel, by decide +kernel⟩

theorem witness_ExecutedStepEffects : ∀ c ∈ [(true, (0xEA : Byte), Instr.nop), (false, 0x00, .brk), (true, 0x60, .rts)],
    ∃ s s' t : State, s.cfg.deterministic = c.1 ∧ TickOf s s' ∧ s'.canStep = true ∧ s.fetchInstr = some c.2.2 ∧
      exec c.2.2 { s' with backupPC := s.pc } = .next t := by
  intro c hc
  refine ⟨{ at0600 [(0x0600, c.2.1)] with cfg := { testConfig with deterministic := c.1 } }, _,
    (exec_next c.2.2 _).choose, rfl, nothing_pending rfl, rfl, ?_, (exec_next c.2.2 _).choose_spec⟩
  revert c
  decide +kernel

theorem witness_UndefinedOpcodesFollowThePolicy : ∀ policy ∈ [UndefPolicy.halt, .nop], ∃ s s' : State, TickOf s s' ∧
    s'.canStep = true ∧ s.fetchInstr = none ∧ s.cfg.undefPolicy = policy := by
  intro policy hp
  refine ⟨{ at0600 [(0x0600, 0x02)] with cfg := { testConfig with undefPolicy := policy } }, _, nothing_pending rfl, rfl, ?_, rfl⟩
  revert policy
  decide +kernel

/-- A state that meets the invariant: any running machine as created. -/
theorem base_inv : Inv base where
  memoryCanonical := rfl
  entropyOneHome := rfl
  configWellFormed := rfl
  signalClear := rfl
  haltedExactly := by decide
  idleUncounted := fun h => nomatch h
  breakKept := rfl
  unusedKept := rfl
  intervalWithinCount := Nat.le_refl _
  capRespected := fun _ _ => Nat.zero_le _

/-- A state that meets the invariant at the cap of its interval. -/
theorem capped_inv : Inv { base with cfg := { testConfig with throttle := .cap 1 }, count := 1, intervalCount := 1 } where
  memoryCanonical := rfl
  entropyOneHome := rfl
  configWellFormed := rfl
  signalClear := rfl
  haltedExactly := by decide
  idleUncounted := fun h => nomatch h
  breakKept := rfl
  unusedKept := rfl
  intervalWithinCount := Nat.le_refl _
  capRespected := fun limit h => by
    injection h with h
    exact h ▸ Nat.le_refl _

theorem witness_StepKeepsInvariant : (∃ s t : State, Inv s ∧ step s = .next t) ∧
    ∃ s t : State, Inv s ∧ s.cfg.throttle = .cap s.intervalCount ∧ step s = .next t :=
  ⟨⟨base, _, base_inv, rfl⟩, _, _, capped_inv, rfl, rfl⟩

theorem witness_ResetMeetsInvariant : testConfig.wellFormed = true ∧ { testConfig with undefAdvance := 3 }.wellFormed = true :=
  ⟨rfl, rfl⟩

theorem witness_StepKeepsParameters : ∃ t : State, step base = .next t := ⟨_, rfl⟩

theorem witness_BreakAndUnusedBitsAreNeverWritten : ∃ s t : State, s.p = 0xFF ∧ step s = .next t ∧ ¬ NextIs s .reset :=
  ⟨{ base with p := 0xFF }, _, rfl, rfl, not_next rfl⟩

theorem witness_HaltedSignalIsSetAndCleared :
    (∃ s t : State, step s = .next t ∧ s.halted = false ∧ t.halted = true ∧ s.readByte s.pc = 0x00) ∧
    (∃ s t : State, step s = .next t ∧ s.halted = false ∧ t.halted = true ∧ s.fetchInstr = none ∧ s.cfg.undefPolicy = .halt) ∧
    (∃ s t : State, step s = .next t ∧ s.halted = false ∧ t.halted = false ∧ s.readByte s.pc = 0xEA) ∧
    ∃ s t : State, step s = .next t ∧ s.halted = true ∧ t.halted = false :=
  ⟨⟨base, _, rfl, rfl, rfl, rfl⟩, ⟨at0600 [(0x0600, 0xFF)], _, rfl, rfl, by decide +kernel, by decide +kernel, rfl⟩,
    ⟨at0600 [(0x0600, 0xEA)], _, rfl, rfl, by decide +kernel, by decide +kernel⟩,
    withPending { base with run := .halted, halted := true } [.reset], _, rfl, rfl, rfl⟩

theorem witness_HaltedIsSticky : ∀ e ∈ [HostEvent.tick, .key 0x41, .quit],
    ∃ s t : State, s.run = .halted ∧ step s = .next t ∧ ¬ NextIs s .reset ∧ NextIs s e := by
  intro e he
  simp only [List.mem_cons, List.not_mem_nil, or_false] at he
  rcases he with rfl | rfl | rfl
  all_goals
    refine ⟨withPending { base with run := .halted, halted := true } [_], _, rfl, rfl, fun ⟨_, h⟩ => ?_, [], rfl⟩
    injection h with h
    exact nomatch h

theorem witness_StoppedIsTerminal : ({ base with run := .stopped } : State).run = .stopped ∧
    (withPending { base with run := .stopped } [.reset]).run = .stopped := ⟨rfl, rfl⟩

/-- A machine that is idle, as created. -/
theorem idle_inv : Inv (State.initial testConfig) where
  memoryCanonical := rfl
  entropyOneHome := rfl
  configWellFormed := rfl
  signalClear := rfl
  haltedExactly := by decide
  idleUncounted := fun _ => rfl
  breakKept := rfl
  unusedKept := rfl
  intervalWithinCount := Nat.le_refl _
  capRespected := fun _ _ => Nat.zero_le _

/-- Pending actions are not spoken of by the invariant. -/
theorem pending_inv {s : State} (events : List HostEvent) (h : Inv s) : Inv (withPending s events) :=
  ⟨h.1, h.2, h.3, h.4, h.5, h.6, h.7, h.8, h.9, h.10⟩

/-- A halted machine meets the invariant. -/
theorem halted_inv : Inv { base with run := .halted, halted := true } where
  memoryCanonical := rfl
  entropyOneHome := rfl
  configWellFormed := rfl
  signalClear := rfl
  haltedExactly := by decide
  idleUncounted := fun h => nomatch h
  breakKept := rfl
  unusedKept := rfl
  intervalWithinCount := Nat.le_refl _
  capRespected := fun _ _ => Nat.zero_le _

/-- A running machine with one undefined opcode at PC meets the invariant. -/
theorem undefined_inv : Inv (at0600 [(0x0600, 0xFF)]) where
  memoryCanonical := by decide +kernel
  entropyOneHome := by decide +kernel
  configWellFormed := rfl
  signalClear := rfl
  haltedExactly := by decide
  idleUncounted := fun h => nomatch h
  breakKept := rfl
  unusedKept := rfl
  intervalWithinCount := Nat.le_refl _
  capRespected := fun _ _ => Nat.zero_le _

theorem witness_RunStateChangesAreTheTables :
    (∃ s t : State, Inv s ∧ step s = .next t ∧ s.run = .idle ∧ t.run = .running) ∧
    (∃ s t : State, Inv s ∧ step s = .next t ∧ s.run = .running ∧ t.run = .halted ∧ s.readByte s.pc = 0x00) ∧
    (∃ s t : State, Inv s ∧ step s = .next t ∧ s.run = .running ∧ t.run = .halted ∧ s.fetchInstr = none) ∧
    (∃ s t : State, Inv s ∧ step s = .next t ∧ s.run = .halted ∧ t.run = .stopped) ∧
    ∃ s t : State, Inv s ∧ step s = .next t ∧ s.run = .halted ∧ t.run = .idle :=
  ⟨⟨_, _, idle_inv, rfl, rfl, rfl⟩, ⟨_, _, base_inv, rfl, rfl, by decide +kernel, rfl⟩,
    ⟨_, _, undefined_inv, rfl, rfl, by decide +kernel, by decide +kernel⟩,
    ⟨_, _, pending_inv [.quit] halted_inv, rfl, rfl, rfl⟩, _, _, pending_inv [.reset] halted_inv, rfl, rfl, rfl⟩

theorem witness_RunStateChangesAreTheTables_events :
    (∃ s s' : State, TickOf s s' ∧ s.run = .idle) ∧
    (∃ s s' : State, Inv s ∧ TickOf s s' ∧ s'.canStep = true ∧ HaltingOpcode s) ∧
    (∃ s s' : State, Inv s ∧ TickOf s s' ∧ s'.canStep = true ∧ ¬ HaltingOpcode s) ∧
    (∀ run ∈ [RunState.idle, .running, .halted], ∃ (s : State) (rest : List HostEvent), s.run = run ∧ s.run ≠ .stopped ∧
      s.pending = .quit :: rest) ∧
    ∃ (s : State) (rest : List HostEvent), s.run = .halted ∧ s.pending = .reset :: rest := by
  refine ⟨⟨State.initial testConfig, _, nothing_pending rfl, rfl⟩, ⟨_, _, base_inv, nothing_pending rfl, rfl, .inl rfl⟩,
    ⟨{ base with cfg := { testConfig with loadOrigin := 0x0700 }, entropy := 0xEA, pc := 0x00FE }, _, ?_, nothing_pending rfl, rfl, ?_⟩,
    fun run hr => ⟨withPending { base with run := run } [.quit], [], rfl, ?_, rfl⟩,
    withPending { base with run := .halted, halted := true } [.reset], [], rfl, rfl⟩
  · exact ⟨rfl, rfl, rfl, rfl, by decide, nofun, rfl, rfl, Nat.le_refl _, fun _ _ => Nat.zero_le _⟩
  · rintro (h | ⟨h, _⟩)
    · exact absurd h (by decide +kernel)
    · exact absurd h (by decide +kernel)
  · revert run
    decide

theorem witness_HostResetRestoresRegistersOnly : ∀ run ∈ [RunState.idle, .running, .halted],
    ∃ (s : State) (rest : List HostEvent), s.run = run ∧ s.run ≠ .stopped ∧ s.pending = .reset :: rest := by
  intro run hr
  refine ⟨withPending { base with run := run } [.reset], [], rfl, ?_, rfl⟩
  revert run
  decide

/-- What an instruction answers on a state. -/
def execOf (i : Instr) (s : State) (p : State → Bool) : Bool :=
  match exec i s with
  | .next t => p t
  | .fault _ => false
  | .refused _ => false

theorem execOf_next {i : Instr} {s : State} {p : State → Bool} (h : execOf i s p = true) :
    ∃ t : State, exec i s = .next t ∧ p t = true := by
  obtain ⟨t, ht⟩ := exec_next i s
  refine ⟨t, ht, ?_⟩
  simpa [execOf, ht] using h

theorem witness_RegisterWritersAreTheListed :
    (∃ t : State, exec (.ldaImm 0x01) base = .next t ∧ (t.a != base.a) = true) ∧
    (∃ t : State, exec .aslAcc { base with a := 0x01 } = .next t ∧ (t.a != 0x01) = true) ∧
    (∃ t : State, exec .inx base = .next t ∧ (t.x != base.x) = true) ∧
    (∃ t : State, exec .dey base = .next t ∧ (t.y != base.y) = true) ∧
    ∃ t : State, exec .pha base = .next t ∧ (t.sp != base.sp) = true :=
  ⟨execOf_next (by decide +kernel), execOf_next (by decide +kernel), execOf_next (by decide +kernel),
    execOf_next (by decide +kernel), execOf_next (by decide +kernel)⟩

theorem witness_FlagWritersAreTheListed : ∀ c ∈ [(Instr.sec, Flag.C), (.sei, .I), (.sed, .D), (.bitZp 0x10, .V), (.ldaImm 0x00, .Z),
    (.ldaImm 0x80, .N)], ∃ t : State, exec c.1 (cells base [(0x0010, 0xFF)]) = .next t ∧ (t.flag c.2 != base.flag c.2) = true := by
  intro c hc
  refine execOf_next ?_
  revert c
  decide +kernel

theorem witness_MemoryWritersAreTheListed :
    ∀ c ∈ [(Instr.staAbs 0xFFFF, (0xFFFF : Word)), (.incZp 0x00, 0x0000), (.pha, 0x01FF), (.php, 0x01FF),
      (.jsr 0x1234, 0x01FF), (.jsr 0x1234, 0x01FE)],
    ∃ t : State, exec c.1 { base with a := 0x01 } = .next t ∧ (t.readByte c.2 != base.readByte c.2) = true := by
  intro c hc
  refine execOf_next ?_
  revert c
  decide +kernel

theorem witness_JumpOutcomesAreTheListed : ∀ c ∈ [(Instr.jmpAbs 0x1234, true), (.rti, true), (.bcc 0xFE, true), (.bcs 0xFE, false),
    (.nop, false)], ∃ t : State, exec c.1 base = .next t ∧ (t.suppress == c.2) = true := by
  intro c hc
  refine execOf_next ?_
  revert c
  decide +kernel

theorem witness_PushesWrapTheStackPointer : (List.replicate 256 (0xFF : Byte)).length = 256 := List.length_replicate

theorem witness_OperandsAndDirectEffectiveAddresses : Instr.aslAcc.mode = .acc ∧ (Instr.ldxZpY 0xF0).mode = .zpy := ⟨rfl, rfl⟩

theorem witness_LoadsSetTheRegisterAndNZ : (Instr.ldaImm 0x00).op = .LDA ∧ (Instr.ldxZpY 0xF0).op = .LDX ∧
    (Instr.ldyAbsX 0xFFF0).op = .LDY := ⟨rfl, rfl, rfl⟩

theorem witness_StoresWriteTheEffectiveAddress : (Instr.staIndY 0xFF).op = .STA ∧ (Instr.stxZpY 0xF0).op = .STX ∧
    (Instr.styAbs 0xFFFF).op = .STY := ⟨rfl, rfl, rfl⟩

theorem witness_TransfersCopyAndSetNZ : Instr.tax.op = .TAX ∧ Instr.tay.op = .TAY ∧ Instr.txa.op = .TXA ∧ Instr.tya.op = .TYA ∧
    Instr.tsx.op = .TSX := ⟨rfl, rfl, rfl, rfl, rfl⟩

theorem witness_TxsWritesNoFlag : Instr.txs.op = .TXS := rfl

theorem witness_FlagInstructionsWriteOneFlag : ∀ c ∈ [(Instr.clc, Op.CLC, (0x18 : Byte), Flag.C, false),
      (.sec, .SEC, 0x38, .C, true), (.cli, .CLI, 0x58, .I, false), (.sei, .SEI, 0x78, .I, true),
      (.cld, .CLD, 0xD8, .D, false), (.sed, .SED, 0xF8, .D, true), (.clv, .CLV, 0xB8, .V, false)],
    c.1.op = c.2.1 ∧ c.2 ∈ [(Op.CLC, (0x18 : Byte), Flag.C, false), (.SEC, 0x38, .C, true), (.CLI, 0x58, .I, false),
      (.SEI, 0x78, .I, true), (.CLD, 0xD8, .D, false), (.SED, 0xF8, .D, true), (.CLV, 0xB8, .V, false)] := by
  decide +kernel

theorem witness_LogicCombinesBitwise : (Instr.andImm 0xFF).op = .AND ∧ (Instr.oraZp 0x00).op = .ORA ∧
    (Instr.eorAbsY 0xFFFF).op = .EOR := ⟨rfl, rfl, rfl⟩

theorem witness_BitTestsMemory : (Instr.bitZp 0xFF).op = .BIT ∧ (Instr.bitAbs 0xFFFF).op = .BIT := ⟨rfl, rfl⟩

theorem witness_ShiftsMoveOneBit : Instr.aslAcc.op = .ASL ∧ (Instr.aslAbsX 0xFFFF).op = .ASL ∧ Instr.lsrAcc.op = .LSR ∧
    (Instr.lsrZp 0x20).op = .LSR := ⟨rfl, rfl, rfl, rfl⟩

theorem witness_RotatesGoThroughTheCarry : Instr.rolAcc.op = .ROL ∧ (Instr.rolZpX 0xFF).op = .ROL ∧ Instr.rorAcc.op = .ROR ∧
    (Instr.rorAbs 0x1234).op = .ROR := ⟨rfl, rfl, rfl, rfl⟩

theorem witness_IncAndDecChangeTheCellByOne : (Instr.incZp 0xFF).op = .INC ∧ (Instr.decAbsX 0xFFFF).op = .DEC := ⟨rfl, rfl⟩

theorem witness_IndexRegistersCountByOne : Instr.inx.op = .INX ∧ Instr.iny.op = .INY ∧ Instr.dex.op = .DEX ∧ Instr.dey.op = .DEY :=
  ⟨rfl, rfl, rfl, rfl⟩

theorem witness_AdcBinaryIsTheNineBitSum : (Instr.adcImm 0xFF).op = .ADC ∧ base.flag .D = false := ⟨rfl, by decide⟩

theorem witness_SbcBinaryIsTheDifference : (Instr.sbcIndX 0xFF).op = .SBC ∧ base.flag .D = false := ⟨rfl, by decide⟩

theorem witness_AdcDecimalAddsByDigits : (Instr.adcImm 0xFF).op = .ADC ∧ ({ base with p := 0x08 } : State).flag .D = true :=
  ⟨rfl, by decide⟩

theorem witness_SbcDecimalSubtractsByDigits : (Instr.sbcImm 0xFF).op = .SBC ∧ ({ base with p := 0x08 } : State).flag .D = true :=
  ⟨rfl, by decide⟩

theorem witness_DecimalArithmeticIsModulo100 : ∀ i ∈ [Instr.adcImm 0x99, .sbcImm 0x99], ∃ (s t : State) (src : Source),
    i.operand = src.operand ∧ exec i s = .next t ∧ s.flag .D = true ∧ BcdValid s.a ∧ BcdValid (s.readSource src) := by
  intro i hi
  refine ⟨{ base with a := 0x99, p := 0x08 }, (exec_next i _).choose, .imm 0x99, ?_, (exec_next i _).choose_spec, by decide,
    ⟨by decide, by decide⟩, ⟨by decide, by decide⟩⟩
  revert i
  decide

theorem witness_ComparesSetNZC : (Instr.cmpImm 0x80).op = .CMP ∧ (Instr.cpxZp 0x00).op = .CPX ∧ (Instr.cpyAbs 0xFFFF).op = .CPY :=
  ⟨rfl, rfl, rfl⟩

theorem witness_BranchesTestTheirFlag : ∀ c ∈ [(Instr.bcc 0xFE, Op.BCC, (0x90 : Byte), Flag.C, false), (.bcs 0x00, .BCS, 0xB0, .C, true),
      (.beq 0xFE, .BEQ, 0xF0, .Z, true), (.bne 0xF9, .BNE, 0xD0, .Z, false), (.bpl 0x7F, .BPL, 0x10, .N, false),
      (.bmi 0x80, .BMI, 0x30, .N, true), (.bvc 0x20, .BVC, 0x50, .V, false), (.bvs 0xF0, .BVS, 0x70, .V, true)],
    c.1.op = c.2.1 ∧ c.2 ∈ [(Op.BCC, (0x90 : Byte), Flag.C, false), (.BCS, 0xB0, .C, true), (.BEQ, 0xF0, .Z, true),
      (.BNE, 0xD0, .Z, false), (.BPL, 0x10, .N, false), (.BMI, 0x30, .N, true), (.BVC, 0x50, .V, false),
      (.BVS, 0x70, .V, true)] := by decide +kernel

theorem witness_JmpJumpsToItsTarget : (Instr.jmpAbs 0x1234).op = .JMP ∧ (Instr.jmpAbs 0x1234).operand = .mem (.abs 0x1234) ∧
    (Instr.jmpInd 0x10FF).op = .JMP ∧ (Instr.jmpInd 0x10FF).operand = .ind 0x10FF := ⟨rfl, rfl, rfl, rfl⟩

theorem witness_JsrPushesItsLastByteAddress : (Instr.jsr 0x0700).op = .JSR := rfl

theorem witness_RtsReturnsPastThePulledAddress : Instr.rts.op = .RTS := rfl

theorem witness_RtiRestoresStatusAndPC : Instr.rti.op = .RTI := rfl

/-- The call of E7 at SP = 0x00, in a machine whose entropy byte is fixed. -/
def caller : State := { base with sp := 0x00, cfg := { testConfig with entropyFixed := 0x5A } }

/-- The state the JSR of `caller` leaves: its return address pushed, PC on the target. -/
def called : State := ((caller.push 0x06).push 0x02).jump 0x0700

/-- The JSR's own step is completed, and so the entropy cell written, before the RTS runs. -/
theorem witness_RtsUndoesJsr : ∃ s t u : State, s.sp = 0x00 ∧ (Instr.jsr 0x0700).op = .JSR ∧ Instr.rts.op = .RTS ∧
    exec (.jsr 0x0700) s = .next t ∧ u.sp = t.sp ∧
    u.readByte (0x0100 + s.sp.setWidth 16) = t.readByte (0x0100 + s.sp.setWidth 16) ∧
    u.readByte (0x0100 + (s.sp - 1).setWidth 16) = t.readByte (0x0100 + (s.sp - 1).setWidth 16) ∧ ¬ MemoryKept t u :=
  ⟨caller, called, called.completeStep 3, rfl, rfl, rfl, rfl, rfl, by decide +kernel, by decide +kernel,
    fun h => absurd (h 0x00FE) (by decide +kernel)⟩

theorem witness_PushInstructionsWriteOneByte : Instr.pha.op = .PHA ∧ Instr.php.op = .PHP := ⟨rfl, rfl⟩

theorem witness_PullInstructionsReadAboveSP : Instr.pla.op = .PLA ∧ Instr.plp.op = .PLP := ⟨rfl, rfl⟩

theorem witness_PlpUndoesPhp : ∃ s t : State, s.sp = 0x00 ∧ Instr.php.op = .PHP ∧ Instr.plp.op = .PLP ∧ exec .php s = .next t :=
  ⟨{ base with sp := 0x00 }, _, rfl, rfl, rfl, rfl⟩

theorem witness_NopOnlyAdvances : Instr.nop.op = .NOP := rfl

theorem witness_BrkHaltsAfterItsStep : Instr.brk.op = .BRK ∧ ∃ s s' : State, TickOf s s' ∧ s'.canStep = true ∧ s.readByte s.pc = 0x00 :=
  ⟨rfl, base, base, nothing_pending rfl, rfl, rfl⟩

theorem witness_ThrottleCapWithholdsSteps : (∀ executed ∈ [0, 1], ∃ s s' : State, TickOf s s' ∧ s.run = .running ∧
      s.paused = false ∧ s.cfg.throttle = .cap 1 ∧ s.intervalCount = executed) ∧
    (∃ s s' : State, TickOf s s' ∧ s.run = .running ∧ s.paused = false ∧ s.cfg.throttle = .cap 1 ∧ s.intervalCount = 0 ∧
      s.fetchInstr = none) ∧
    ∃ (s : State) (rest : List HostEvent), s.run ≠ .stopped ∧ s.pending = .intervalStart :: rest :=
  ⟨fun executed _ => ⟨{ base with cfg := { testConfig with throttle := .cap 1 }, intervalCount := executed }, _,
      nothing_pending rfl, rfl, rfl, rfl, rfl⟩,
    ⟨{ at0600 [(0x0600, 0x02)] with cfg := { testConfig with throttle := .cap 1 } }, _, nothing_pending rfl, rfl, rfl, rfl, rfl,
      by decide +kernel⟩,
    withPending { base with intervalCount := 1 } [.intervalStart], [], by decide, rfl⟩

theorem witness_BreakpointsPauseAfterTheStep : (∃ s s' : State, TickOf s s' ∧ s.run = .running ∧ s.paused = true) ∧
    ∀ mode ∈ [BreakMode.off, .byAddress 0x0600, .byCount 1, .trapped, .singleStep], ∃ (s s' : State) (i : Instr),
      TickOf s s' ∧ s'.canStep = true ∧ s.fetchInstr = some i ∧ s.cfg.breakMode = mode := by
  refine ⟨⟨{ base with paused := true }, _, nothing_pending rfl, rfl, rfl⟩, fun mode hm => ?_⟩
  refine ⟨{ base with cfg := { testConfig with breakMode := mode } }, _, .brk, nothing_pending rfl, rfl, ?_, rfl⟩
  revert mode
  decide +kernel

theorem witness_KeyPressWritesTheKeyboardCell : ∃ (s : State) (rest : List HostEvent), s.run ≠ .stopped ∧ s.pending = .key 0xFF :: rest :=
  ⟨withPending base [.key 0xFF], [], by decide, rfl⟩

end Sys2Proof.Tests
end

namespace Sys2Proof.Machine

open Sys2Proof.Claims

/-! ## What an instruction changes

`exec_frame` says what no instruction changes. The lemmas here add, over all 151 constructors, the memory of the invariant, the
flags by mnemonic, and the four byte registers. -/

section Branch

/-! The state after `Branch` (R220) differs from the one before in PC and the signal alone, whatever the condition. -/

variable (c : Prop) [Decidable c] (s : State) (target : Word)

@[simp] theorem branch_a : (if c then s.jump target else s.advance).a = s.a := by split <;> rfl
@[simp] theorem branch_x : (if c then s.jump target else s.advance).x = s.x := by split <;> rfl
@[simp] theorem branch_y : (if c then s.jump target else s.advance).y = s.y := by split <;> rfl
@[simp] theorem branch_sp : (if c then s.jump target else s.advance).sp = s.sp := by split <;> rfl
@[simp] theorem branch_mem : (if c then s.jump target else s.advance).mem = s.mem := by split <;> rfl
@[simp] theorem branch_flag (f : Flag) : (if c then s.jump target else s.advance).flag f = s.flag f := by split <;> rfl

end Branch

/-! ### Memory (logs 9 and 10) -/

theorem Memory.mem_of_mem_write {m : Memory} {addr : Nat} {v : Byte} {c : Host.Cell} (h : c ∈ m.write addr v) :
    c.1 = addr ∨ c ∈ m := by
  unfold Memory.write at h
  split at h
  · exact .inr (Memory.mem_erase.mp h).1
  · obtain rfl | h := Memory.mem_insert.mp h
    · exact .inl rfl
    · exact .inr (Memory.mem_erase.mp h).1

/-- The part of the invariant that speaks of the memory list: it is canonical and leaves out the entropy cell. -/
def MemoryOk (entropyAddr : Word) (m : Memory) : Prop := m.wf = true ∧ ∀ c ∈ m, c.1 ≠ entropyAddr.toNat

theorem memoryOk_iff (s : State) : MemoryOk s.cfg.entropyAddr s.mem ↔ s.mem.wf = true ∧ entropyUnlisted s = true := by
  simp [MemoryOk, entropyUnlisted]

/-- A byte write keeps the memory's part of the invariant, at the entropy cell as elsewhere. -/
theorem memoryOk_writeByte {s : State} (h : MemoryOk s.cfg.entropyAddr s.mem) (addr : Word) (v : Byte) :
    MemoryOk s.cfg.entropyAddr (s.writeByte addr v).mem := by
  refine ⟨State.wf_writeByte addr v h.1, fun c hc => ?_⟩
  unfold State.writeByte at hc
  by_cases ha : addr = s.cfg.entropyAddr
  · rw [if_pos ha] at hc
    exact h.2 c hc
  · rw [if_neg ha] at hc
    obtain hc | hc := Memory.mem_of_mem_write hc
    · exact fun e => ha (BitVec.eq_of_toNat_eq (hc.symm.trans e))
    · exact h.2 c hc

theorem memoryOk_push {s : State} (h : MemoryOk s.cfg.entropyAddr s.mem) (v : Byte) :
    MemoryOk s.cfg.entropyAddr (s.push v).mem := memoryOk_writeByte h (stackAddr s.sp) v

theorem memoryOk_push_push {s : State} (h : MemoryOk s.cfg.entropyAddr s.mem) (v w : Byte) :
    MemoryOk s.cfg.entropyAddr ((s.push v).push w).mem := memoryOk_push (s := s.push v) (memoryOk_push h v) w

/-- An instruction leaves the memory as it was, or after one byte write, or after one push, or after JSR's two; all keep the
memory's part of the invariant. -/
theorem exec_memoryOk {i : Instr} {s t : State} (h : exec i s = .next t) (hs : MemoryOk s.cfg.entropyAddr s.mem) :
    MemoryOk t.cfg.entropyAddr t.mem := by
  obtain ⟨-, -, -, -, -, hcfg, -⟩ := exec_frame h
  rw [hcfg]
  cases i <;> injection h with h <;> subst h <;> simp [hs, memoryOk_writeByte, memoryOk_push, memoryOk_push_push]

/-! ### Flags (R29 to R36) -/

/-- The flags that a mnemonic can write; `exec_flagsKept` ties the table to `exec`. -/
def flagsWritten : Op → List Flag
  | .ADC | .SBC => [.C, .Z, .V, .N]
  | .CMP | .CPX | .CPY | .ASL | .LSR | .ROL | .ROR => [.C, .Z, .N]
  | .BIT => [.Z, .V, .N]
  | .AND | .ORA | .EOR | .INC | .DEC | .INX | .INY | .DEX | .DEY => [.Z, .N]
  | .LDA | .LDX | .LDY | .TAX | .TAY | .TXA | .TYA | .TSX | .PLA => [.Z, .N]
  | .PLP | .RTI => [.C, .Z, .I, .D, .V, .N]
  | .CLC | .SEC => [.C]
  | .CLI | .SEI => [.I]
  | .CLD | .SED => [.D]
  | .CLV => [.V]
  | _ => []

/-- PLP and RTI restore every flag but P.B and P.U (R232, R253). -/
theorem flagOf_restoredStatus_of_not_mem {f : Flag} (hf : f ∉ flagsWritten .PLP) (pulled p : Byte) :
    flagOf (restoredStatus pulled p) f = flagOf p f := by
  rw [flagOf_restoredStatus, if_pos]
  revert hf
  cases f <;> decide

/-- An instruction writes only the flags of its mnemonic: those of the flag computation that its operation ends in. -/
theorem exec_flagsKept {i : Instr} {s t : State} (h : exec i s = .next t) : FlagsKept s t (flagsWritten i.op) := by
  intro f hf
  cases i <;> injection h with h <;> subst h
  case plp | rti => exact flagOf_restoredStatus_of_not_mem hf s.pullByte s.p
  all_goals
    simp only [Instr.op, flagsWritten, List.mem_cons, List.not_mem_nil, or_false, not_or] at hf
    simp [hf, State.flag_setFlag, State.flag_setNZ, State.flag_setShift, State.flag_setAlu, State.flag_compare]

theorem break_not_mem_flagsWritten (o : Op) : .B ∉ flagsWritten o := by cases o <;> decide

theorem unused_not_mem_flagsWritten (o : Op) : .U ∉ flagsWritten o := by cases o <;> decide

/-- R33: no instruction writes P.B. -/
theorem exec_flag_break {i : Instr} {s t : State} (h : exec i s = .next t) : t.flag .B = s.flag .B :=
  exec_flagsKept h .B (break_not_mem_flagsWritten i.op)

/-- R34: no instruction writes P.U. -/
theorem exec_flag_unused {i : Instr} {s t : State} (h : exec i s = .next t) : t.flag .U = s.flag .U :=
  exec_flagsKept h .U (unused_not_mem_flagsWritten i.op)

theorem mem_flagsWritten_of_ne {i : Instr} {s t : State} {f : Flag} (h : exec i s = .next t) (hne : t.flag f ≠ s.flag f) :
    f ∈ flagsWritten i.op := by_contra fun hf => hne (exec_flagsKept h f hf)

/-! ### Registers (R21, R22, R23, R27) -/

theorem exec_a {i : Instr} {s t : State} (h : exec i s = .next t) :
    t.a = s.a ∨ i.op ∈ [.ADC, .SBC, .AND, .ORA, .EOR, .LDA, .PLA, .TXA, .TYA] ∨
      i.mode = .acc ∧ i.op ∈ [.ASL, .LSR, .ROL, .ROR] := by
  cases i <;> injection h with h <;> subst h <;> simp [Instr.op, Instr.mode, Instr.operand, Operand.mode]

theorem exec_x {i : Instr} {s t : State} (h : exec i s = .next t) :
    t.x = s.x ∨ i.op ∈ [.LDX, .TAX, .TSX, .INX, .DEX] := by
  cases i <;> injection h with h <;> subst h <;> simp [Instr.op]

theorem exec_y {i : Instr} {s t : State} (h : exec i s = .next t) : t.y = s.y ∨ i.op ∈ [.LDY, .TAY, .INY, .DEY] := by
  cases i <;> injection h with h <;> subst h <;> simp [Instr.op]

theorem exec_sp {i : Instr} {s t : State} (h : exec i s = .next t) :
    t.sp = s.sp ∨ i.op ∈ [.TXS, .PHA, .PHP, .PLA, .PLP, .JSR, .RTS, .RTI] := by
  cases i <;> injection h with h <;> subst h <;> simp [Instr.op]

/-! ## The step at an undefined opcode (R311 to R313) -/

namespace State

theorem undefinedStep_cfg (s : State) : s.undefinedStep.cfg = s.cfg := by
  cases hp : s.cfg.undefPolicy with
  | halt => rw [undefinedStep_halt hp]
  | nop => simp [undefinedStep_nop hp]

theorem undefinedStep_flag (s : State) (f : Flag) : s.undefinedStep.flag f = s.flag f := by
  cases hp : s.cfg.undefPolicy with
  | halt => rw [undefinedStep_halt hp]; rfl
  | nop => rw [undefinedStep_nop hp, flag_checkBreakpoint]; rfl

theorem undefinedStep_halted (s : State) :
    s.undefinedStep.halted = true ↔ s.halted = true ∨ s.cfg.undefPolicy = .halt := by
  cases hp : s.cfg.undefPolicy with
  | halt => simp [undefinedStep_halt hp]
  | nop => simp [undefinedStep_nop hp]

/-- Between steps, and not halted, an ignored undefined opcode is a NOP of length `UNDEF_ADVANCE` (R313, D8). -/
theorem undefinedStep_eq_completeStep {s : State} (hp : s.cfg.undefPolicy = .nop) (hsignal : s.suppress = false)
    (hhalted : s.halted = false) : s.undefinedStep = s.advance.completeStep s.cfg.undefAdvance := by
  have hadv : s.advance.advancePC s.cfg.undefAdvance = { s with pc := s.pc + BitVec.ofNat 16 s.cfg.undefAdvance } := by
    simp [advancePC, advance, hsignal]
  rw [undefinedStep_nop hp, completeStep, hadv, settleHalt, if_neg]
  simp [hhalted]

end State

/-! ## The halting opcodes (R39, R254) -/

/-- The instruction of a slot has the slot's mnemonic. -/
theorem op_of_make {o : Op} {m : Mode} {b1 b2 : Byte} {i : Instr} (h : Instr.make o m b1 b2 = some i) : i.op = o := by
  cases o
  all_goals
    simp only [Instr.make] at h
    split at h <;> cases h
    all_goals rfl

/-- The only slot of BRK is 00 (R120). -/
theorem eq_zero_of_opSlot_brk : ∀ opcode : Byte, (opSlot opcode).map Prod.fst = some .BRK → opcode = 0x00 := by decide

/-- A fetched instruction is a BRK exactly at the opcode 00. -/
theorem op_eq_brk_iff {opcode b1 b2 : Byte} {i : Instr} (h : decodeInstr opcode b1 b2 = some i) :
    i.op = .BRK ↔ opcode = 0x00 := by
  constructor
  · intro hi
    unfold decodeInstr at h
    split at h
    · next o m hslot =>
      apply eq_zero_of_opSlot_brk
      rw [hslot, ← hi, op_of_make h]
      rfl
    · cases h
  · rintro rfl
    cases h
    rfl

theorem readByte_pc_ne_zero_of_undefined {s : State} (h : s.fetchInstr = none) : s.readByte s.pc ≠ 0x00 := by
  intro h0
  rw [State.fetchInstr, h0] at h
  cases h

/-! ## What a step of R123 keeps -/

theorem runInstruction_cfg {s t : State} (h : runInstruction s = .next t) : t.cfg = s.cfg := by
  obtain ⟨-, rfl⟩ | ⟨i, u, -, hu, rfl⟩ := runInstruction_cases h
  · exact State.undefinedStep_cfg _
  · obtain ⟨-, -, -, -, -, hcfg, -⟩ := exec_frame hu
    exact (State.completeStep_cfg u i.length).trans hcfg

theorem completeStep_flag (s : State) (len : Nat) (f : Flag) : (s.completeStep len).flag f = s.flag f := by
  rw [State.flag_eq, State.completeStep_p, State.flag_eq]

theorem completeStep_halted (s : State) (len : Nat) : (s.completeStep len).halted = s.halted := by
  simp [State.completeStep]

/-- R33, R34: a step writes neither P.B nor P.U. -/
theorem runInstruction_flags {s t : State} (h : runInstruction s = .next t) :
    t.flag .B = s.flag .B ∧ t.flag .U = s.flag .U := by
  obtain ⟨-, rfl⟩ | ⟨i, u, -, hu, rfl⟩ := runInstruction_cases h
  · exact ⟨State.undefinedStep_flag _ .B, State.undefinedStep_flag _ .U⟩
  · rw [completeStep_flag, completeStep_flag, exec_flag_break hu, exec_flag_unused hu]
    exact ⟨rfl, rfl⟩

/-- R39: a step leaves `halted` set exactly where it was set before or the opcode halts. -/
theorem runInstruction_halted {s t : State} (h : runInstruction s = .next t) :
    t.halted = true ↔ s.halted = true ∨ HaltingOpcode s := by
  unfold HaltingOpcode
  obtain ⟨hf, rfl⟩ | ⟨i, u, hf, hu, rfl⟩ := runInstruction_cases h
  · have h0 := readByte_pc_ne_zero_of_undefined hf
    rw [State.undefinedStep_halted]
    simp only [hf, h0, false_or, true_and]
    rfl
  · obtain ⟨-, -, -, -, -, -, -, -, -, hhalted⟩ := exec_frame hu
    rw [completeStep_halted, hhalted, ← op_eq_brk_iff hf]
    by_cases hb : i.op = .BRK <;> simp [hb, hf]

/-! ## What a move keeps -/

theorem hostAct_keeps {P : State → Prop} {s : State} {e : HostEvent} (hs : P s) (he : P (s.actOn e)) : P (s.hostAct e) := by
  unfold State.hostAct
  split
  · exact hs
  · exact he
  · exact he
  · exact he

/-- A property that each kind of move keeps is kept by a move: the event taken off the list, a host action, the end of the
start delay, and a step of R123. -/
theorem step_keeps {P : State → Prop} {s t : State} (h : step s = .next t) (hs : P s)
    (hpending : ∀ u rest, P u → P { u with pending := rest })
    (hhost : ∀ u e, NextIs s e → P u → P (u.actOn e))
    (hstart : ∀ u, u.run = .idle → P u → P { u with run := .running })
    (hrun : ∀ u v, u.canStep = true → runInstruction u = .next v → P u → P v) : P t := by
  have htick : ∀ u, P u → schedulerTick u = .next t → P t := by
    intro u hu ht
    obtain ⟨hidle, rfl⟩ | ⟨-, -, rfl⟩ | ⟨-, hc, hv⟩ := schedulerTick_cases ht
    · exact hstart u hidle hu
    · exact hu
    · exact hrun u t hc hv hu
  obtain ⟨e, rest, hp, -, rfl⟩ | ⟨-, ht⟩ | ⟨rest, -, ht⟩ := step_cases h
  · have hu := hpending s rest hs
    exact hostAct_keeps hu (hhost _ e ⟨rest, hp⟩ hu)
  · exact htick s hs ht
  · exact htick _ (hpending s rest hs) ht

theorem actOn_cfg (s : State) (e : HostEvent) : (s.actOn e).cfg = s.cfg := by cases e <;> rfl

theorem actOn_flag (s : State) {e : HostEvent} (he : e ≠ .reset) (f : Flag) : (s.actOn e).flag f = s.flag f := by
  cases e
  case reset => exact absurd rfl he
  all_goals rfl

theorem actOn_halted (s : State) {e : HostEvent} (he : e ≠ .reset) : (s.actOn e).halted = s.halted := by
  cases e
  case reset => exact absurd rfl he
  all_goals rfl

/-- No host action raises `halted`. -/
theorem actOn_halted_eq_false {s : State} (h : s.halted = false) (e : HostEvent) : (s.actOn e).halted = false := by
  by_cases he : e = .reset
  · subst he
    rfl
  · rw [actOn_halted s he, h]

/-! ## Ticks -/

theorem eq_of_tickOf {s u v : State} (hu : TickOf s u) (hv : TickOf s v) : u = v := by
  obtain ⟨hp, rfl⟩ | ⟨rest, hp, rfl⟩ := hu <;> obtain ⟨hq, rfl⟩ | ⟨rest', hq, rfl⟩ := hv
  · rfl
  · simp [hp] at hq
  · simp [hp] at hq
  · rw [hp, List.cons.injEq] at hq
    rw [hq.2]

theorem eq_with_pending_of_tickOf {s u : State} (h : TickOf s u) : ∃ rest, u = { s with pending := rest } := by
  obtain ⟨-, rfl⟩ | ⟨rest, -, rfl⟩ := h
  · exact ⟨u.pending, rfl⟩
  · exact ⟨rest, rfl⟩

theorem not_tickOf_of_host {s u : State} {e : HostEvent} {rest : List HostEvent} (hp : s.pending = e :: rest)
    (he : e ≠ .tick) : ¬ TickOf s u := by
  rintro (⟨hq, -⟩ | ⟨rest', hq, -⟩)
  · simp [hp] at hq
  · rw [hp, List.cons.injEq] at hq
    exact he hq.1

theorem canStep_iff (s : State) :
    s.canStep = true ↔ s.run = .running ∧ s.paused = false ∧ s.belowCap = true := by
  simp [State.canStep, and_assoc]

/-- R39: a tick raises `halted` exactly when a step runs at a halting opcode. -/
theorem schedulerTick_halted {s t : State} (h : schedulerTick s = .next t) (hs : s.halted = false) :
    t.halted = true ↔ s.canStep = true ∧ HaltingOpcode s := by
  obtain ⟨hidle, rfl⟩ | ⟨-, hc, rfl⟩ | ⟨-, hc, hr⟩ := schedulerTick_cases h
  · simp [hs, canStep_iff, hidle]
  · simp [hs, hc]
  · simp [runInstruction_halted hr, hs, hc]

end Sys2Proof.Machine

namespace Sys2Proof

open Sys2Proof.Machine

/-! ## The invariant -/

namespace Inv

theorem memoryOk {s : State} (h : Inv s) : MemoryOk s.cfg.entropyAddr s.mem :=
  (memoryOk_iff s).mpr ⟨h.memoryCanonical, h.entropyOneHome⟩

/-- A running machine that meets the invariant is not halted (R41). -/
theorem halted_eq_false {s : State} (h : Inv s) (hr : s.run = .running) : s.halted = false := by
  simpa [hr] using h.haltedExactly

theorem withPending {s : State} (h : Inv s) (rest : List HostEvent) : Inv { s with pending := rest } := { h with }

theorem snapshotPC {s : State} (h : Inv s) : Inv s.snapshotPC := { h with }

/-- The start delay's end (R317). -/
theorem start {s : State} (h : Inv s) (hidle : s.run = .idle) : Inv { s with run := .running } where
  __ := h
  haltedExactly := by simpa [hidle] using h.haltedExactly
  idleUncounted := nofun

theorem writeByte {s : State} (h : Inv s) (addr : Word) (v : Byte) : Inv (s.writeByte addr v) where
  __ := h
  memoryCanonical := (memoryOk_writeByte h.memoryOk addr v).1
  entropyOneHome := ((memoryOk_iff (s.writeByte addr v)).mp (memoryOk_writeByte h.memoryOk addr v)).2

theorem hostReset {s : State} (h : Inv s) : Inv s.hostReset where
  memoryCanonical := h.memoryCanonical
  entropyOneHome := h.entropyOneHome
  configWellFormed := h.configWellFormed
  signalClear := rfl
  haltedExactly := by simp [State.hostReset]
  idleUncounted _ := rfl
  breakKept := rfl
  unusedKept := rfl
  intervalWithinCount := Nat.le_refl 0
  capRespected _ _ := Nat.zero_le _

theorem actOn {s : State} (h : Inv s) (e : HostEvent) : Inv (s.actOn e) := by
  cases e with
  | tick | render | coredump => exact h
  | key code => exact h.writeByte s.cfg.keyAddr code
  | intervalStart =>
    exact { h with intervalWithinCount := Nat.zero_le _, capRespected := fun _ _ => Nat.zero_le _ }
  | quit => exact { h with haltedExactly := by simp [State.actOn], idleUncounted := nofun }
  | reset => exact h.hostReset
  | resume | resumeFromBreakpoint => exact { h with }

/-- The step at an undefined opcode under the policy `halt` (R312). -/
theorem undefinedHalt {s : State} (h : Inv s) : Inv { s with halted := true, run := .halted } where
  __ := h
  haltedExactly := by simp
  idleUncounted := nofun

/-- A step that may run leaves the interval's count within the cap (R362). -/
theorem intervalCount_lt_cap {s : State} {limit : Nat} (hc : s.canStep = true) (hl : s.cfg.throttle = .cap limit) :
    s.intervalCount < limit := by
  obtain ⟨-, -, hcap⟩ := (canStep_iff s).mp hc
  simpa [State.belowCap, hl] using hcap

/-- An executed instruction and the completion of its step, whatever the length it advances by (R123). -/
theorem executed {s u : State} {i : Instr} (h : Inv s) (hc : s.canStep = true) (hu : exec i s = .next u) (len : Nat) :
    Inv (u.completeStep len) := by
  obtain ⟨hrunning, -, -⟩ := (canStep_iff s).mp hc
  obtain ⟨hrun, hcount, hinterval, -, -, hcfg, -⟩ := exec_frame hu
  have hmem : MemoryOk (u.completeStep len).cfg.entropyAddr (u.completeStep len).mem := by
    rw [State.completeStep_cfg, State.completeStep_mem]
    exact exec_memoryOk hu h.memoryOk
  obtain ⟨hcanonical, hunlisted⟩ := (memoryOk_iff _).mp hmem
  refine
    { memoryCanonical := hcanonical
      entropyOneHome := hunlisted
      configWellFormed := ?_
      signalClear := State.completeStep_suppress u len
      haltedExactly := ?_
      idleUncounted := ?_
      breakKept := ?_
      unusedKept := ?_
      intervalWithinCount := ?_
      capRespected := fun limit hl => ?_ }
  · rw [State.completeStep_cfg, hcfg]
    exact h.configWellFormed
  · rw [State.completeStep_run, completeStep_halted, hrun, hrunning]
    cases u.halted <;> simp
  · rw [State.completeStep_run, hrun, hrunning]
    cases u.halted <;> simp
  · rw [completeStep_flag, exec_flag_break hu, State.completeStep_cfg, hcfg]
    exact h.breakKept
  · rw [completeStep_flag, exec_flag_unused hu, State.completeStep_cfg, hcfg]
    exact h.unusedKept
  · rw [State.completeStep_intervalCount, State.completeStep_count, hinterval, hcount]
    exact Nat.succ_le_succ h.intervalWithinCount
  · rw [State.completeStep_cfg, hcfg] at hl
    rw [State.completeStep_intervalCount, hinterval]
    exact intervalCount_lt_cap hc hl

/-- The step at an undefined opcode, under either policy (R311). -/
theorem undefinedStep {s : State} (h : Inv s) (hc : s.canStep = true) : Inv s.undefinedStep := by
  cases hp : s.cfg.undefPolicy with
  | halt =>
    rw [State.undefinedStep_halt hp]
    exact h.undefinedHalt
  | nop =>
    obtain ⟨hrunning, -, -⟩ := (canStep_iff s).mp hc
    rw [State.undefinedStep_eq_completeStep hp h.signalClear (h.halted_eq_false hrunning)]
    exact h.executed (i := .nop) hc rfl _

/-- A step of R123. -/
theorem runInstruction {s t : State} (h : Inv s) (hc : s.canStep = true) (ht : runInstruction s = .next t) : Inv t := by
  obtain ⟨-, rfl⟩ | ⟨i, u, -, hu, rfl⟩ := runInstruction_cases ht
  · exact h.snapshotPC.undefinedStep hc
  · exact h.snapshotPC.executed hc hu i.length

end Inv

end Sys2Proof

/-! ## The settled statements -/

namespace Sys2Proof.Proofs

open Sys2Proof.Machine Sys2Proof.Claims

/-- Settles O9: each kind of move keeps the invariant, a step of R123 through `Inv.executed` and `Inv.undefinedStep`. -/
theorem stepKeepsInvariant : Obligations.StepKeepsInvariant := by
  intro s t hs h
  exact step_keeps h hs (fun _ rest hu => hu.withPending rest) (fun _ e _ hu => hu.actOn e)
    (fun _ hidle hu => hu.start hidle) (fun _ _ hc hv hu => hu.runInstruction hc hv)

/-- Settles O11: no host action, no policy and no instruction writes the parameters. -/
theorem stepKeepsParameters : Obligations.StepKeepsParameters := by
  intro s t h
  exact step_keeps (P := fun u => u.cfg = s.cfg) h rfl (fun _ _ hu => hu) (fun u e _ hu => (actOn_cfg u e).trans hu)
    (fun _ _ hu => hu) (fun _ _ _ hv hu => (runInstruction_cfg hv).trans hu)

/-- Settles O12: `flagsWritten` lists P.B and P.U for no mnemonic, and no host action but a reset writes P. -/
theorem breakAndUnusedBitsAreNeverWritten : Obligations.BreakAndUnusedBitsAreNeverWritten := by
  intro s t h hreset
  refine step_keeps (P := fun u => u.flag .B = s.flag .B ∧ u.flag .U = s.flag .U) h ⟨rfl, rfl⟩ (fun _ _ hu => hu) ?_
    (fun _ _ hu => hu) ?_
  · intro u e he hu
    have hne : e ≠ .reset := fun heq => hreset (heq ▸ he)
    rwa [actOn_flag u hne, actOn_flag u hne]
  · intro u v _ hv hu
    obtain ⟨hb, hu'⟩ := runInstruction_flags hv
    rwa [hb, hu']

/-- R39: `halted` goes up exactly in a step at a halting opcode. -/
theorem halted_set_iff {s t : State} (h : step s = .next t) (hs : s.halted = false) :
    t.halted = true ↔ ∃ s', TickOf s s' ∧ s'.canStep = true ∧ HaltingOpcode s := by
  have htick : ∀ u, TickOf s u → schedulerTick u = .next t →
      (t.halted = true ↔ ∃ s', TickOf s s' ∧ s'.canStep = true ∧ HaltingOpcode s) := by
    intro u hu ht
    have huniq : (∃ s', TickOf s s' ∧ s'.canStep = true ∧ HaltingOpcode s) ↔ u.canStep = true ∧ HaltingOpcode s :=
      ⟨fun ⟨s', hs', hc⟩ => eq_of_tickOf hs' hu ▸ hc, fun hc => ⟨u, hu, hc⟩⟩
    rw [huniq]
    obtain ⟨rest, rfl⟩ := eq_with_pending_of_tickOf hu
    exact schedulerTick_halted ht hs
  obtain ⟨e, rest, hp, he, rfl⟩ | ⟨hp, ht⟩ | ⟨rest, hp, ht⟩ := step_cases h
  · have hhalted : (State.hostAct { s with pending := rest } e).halted = false :=
      hostAct_keeps (P := fun u => u.halted = false) hs (actOn_halted_eq_false (s := { s with pending := rest }) hs e)
    constructor
    · intro ht
      simp [hhalted] at ht
    · rintro ⟨s', hs', -⟩
      exact absurd hs' (not_tickOf_of_host hp he)
  · exact htick s (.inl ⟨hp, rfl⟩) ht
  · exact htick _ (.inr ⟨rest, hp, rfl⟩) ht

/-- R39: only a reset clears `halted`. -/
theorem nextIs_reset_of_halted_cleared {s t : State} (h : step s = .next t) (hs : s.halted = true)
    (ht : t.halted = false) : NextIs s .reset := by
  by_contra hreset
  have hkept : t.halted = true := by
    refine step_keeps (P := fun u => u.halted = true) h hs (fun _ _ hu => hu) ?_ (fun _ _ hu => hu)
      (fun _ _ _ hv hu => (runInstruction_halted hv).mpr (.inl hu))
    intro u e he hu
    exact (actOn_halted u fun heq => hreset (heq ▸ he)).trans hu
  simp [ht] at hkept

/-- Settles O13: `halted_set_iff` says where it is set and `nextIs_reset_of_halted_cleared` what clears it. -/
theorem haltedSignalIsSetAndCleared : Obligations.HaltedSignalIsSetAndCleared :=
  ⟨fun _ => rfl, fun _ _ => halted_set_iff, fun _ _ => nextIs_reset_of_halted_cleared⟩

/-- Settles O19: one lemma per register, over all instructions. -/
theorem registerWritersAreTheListed : Obligations.RegisterWritersAreTheListed := fun _ _ _ h =>
  ⟨(exec_a h).resolve_left, (exec_x h).resolve_left, (exec_y h).resolve_left, (exec_sp h).resolve_left⟩

/-- Settles O20: a changed flag is one that `flagsWritten` lists for the mnemonic, and the mnemonics with that flag are the
obligation's list. -/
theorem flagWritersAreTheListed : Obligations.FlagWritersAreTheListed := by
  intro i s t h
  refine ⟨fun hne => ?carry, fun hne => ?interrupt, fun hne => ?decimal, fun hne => ?overflow, fun hne => ?zeroNegative,
    exec_flag_break h, exec_flag_unused h⟩
  case zeroNegative =>
    have hf : .Z ∈ flagsWritten i.op ∨ .N ∈ flagsWritten i.op :=
      hne.imp (mem_flagsWritten_of_ne h) (mem_flagsWritten_of_ne h)
    revert hf
    cases i.op <;> decide
  all_goals
    have hf := mem_flagsWritten_of_ne h hne
    revert hf
    cases i.op <;> decide

/-- Settles O18: memory is the empty list beside a zero entropy cell, so every cell reads 0x00. -/
theorem initialStateHoldsTheParameters : Obligations.InitialStateHoldsTheParameters := by
  have hzero : ∀ cfg addr, (State.initial cfg).readByte addr = 0x00 := by
    intro cfg addr
    unfold State.readByte
    split
    · rfl
    · exact Memory.read_nil addr.toNat
  exact ⟨fun cfg => ⟨rfl, rfl, rfl, rfl, rfl, rfl, rfl, rfl, rfl, rfl, hzero cfg⟩, rfl, rfl, rfl, rfl, rfl, rfl⟩

end Sys2Proof.Proofs

/-! ## Memory (20_memory.md)

One rule per memory operation says which cells it can change: a byte write, a push, an instruction, a host action. -/

namespace Sys2Proof.Machine

open Sys2Proof.Claims

/-! ### Byte writes and the stack (R63, R70, R71) -/

theorem memoryKeptBut_writeByte (s : State) (addr : Word) (v : Byte) : MemoryKeptBut s (s.writeByte addr v) [addr] :=
  fun _ hb => State.readByte_writeByte_other s v (List.ne_of_not_mem_cons hb)

theorem memoryKeptBut_push (s : State) (v : Byte) : MemoryKeptBut s (s.push v) [stackAddr s.sp] :=
  memoryKeptBut_writeByte s (stackAddr s.sp) v

/-- Two pushes, as JSR makes them, change the cell SP designates and the one below it. -/
theorem memoryKeptBut_push_push (s : State) (v w : Byte) :
    MemoryKeptBut s ((s.push v).push w) [stackAddr s.sp, stackAddr (s.sp - 1)] := by
  intro addr haddr
  rw [memoryKeptBut_push (s.push v) w addr (List.not_mem_of_not_mem_cons haddr)]
  exact State.readByte_writeByte_other s v (List.ne_of_not_mem_cons haddr)

@[simp] theorem readByte_push_same (s : State) (v : Byte) : (s.push v).readByte (stackAddr s.sp) = v :=
  State.readByte_writeByte_same s (stackAddr s.sp) v

@[simp] theorem pullByte_push (s : State) (v : Byte) : (s.push v).pullByte = v := by
  rw [State.pullByte, State.push_sp, BitVec.sub_add_cancel, readByte_push_same]

/-- Each push lowers SP by one, modulo 256, whatever the byte. -/
theorem foldl_push_sp (vs : List Byte) (s : State) : (vs.foldl State.push s).sp = s.sp - BitVec.ofNat 8 vs.length := by
  induction vs generalizing s with
  | nil => simp
  | cons v vs ih =>
    rw [List.foldl_cons, ih, State.push_sp, List.length_cons]
    bv_omega

/-! ### Instructions (R67, R85) -/

/-- The cell a store or read-modify-write form writes: the one at its effective address, and none for the accumulator. -/
def operandCells (s : State) : Operand → List Word
  | .mem m => [s.ea m]
  | .imp | .acc | .imm _ | .ind _ | .rel _ => []

theorem mem_operandCells {s : State} {x : Operand} {addr : Word} :
    addr ∈ operandCells s x ↔ ∃ m, x = .mem m ∧ addr = s.ea m := by
  cases x <;> simp [operandCells]

/-- The cells that a mnemonic can write; `exec_memoryKeptBut` ties the table to `exec`. -/
def cellsWritten (s : State) (x : Operand) : Op → List Word
  | .STA | .STX | .STY | .INC | .DEC | .ASL | .LSR | .ROL | .ROR => operandCells s x
  | .PHA | .PHP => [stackAddr s.sp]
  | .JSR => [stackAddr s.sp, stackAddr (s.sp - 1)]
  | _ => []

theorem mem_cellsWritten {s : State} {x : Operand} {o : Op} {addr : Word} :
    addr ∈ cellsWritten s x o ↔
      (o ∈ [.STA, .STX, .STY, .INC, .DEC, .ASL, .LSR, .ROL, .ROR] ∧ ∃ m, x = .mem m ∧ addr = s.ea m) ∨
        (o ∈ [.PHA, .PHP] ∧ addr = stackAddr s.sp) ∨
        (o = .JSR ∧ (addr = stackAddr s.sp ∨ addr = stackAddr (s.sp - 1))) := by
  cases o <;> simp [cellsWritten, mem_operandCells]

/-- A branch writes no memory, taken or not (R220). -/
@[simp] theorem branch_readByte (c : Prop) [Decidable c] (s : State) (target addr : Word) :
    (if c then s.jump target else s.advance).readByte addr = s.readByte addr := by split <;> rfl

/-- An instruction changes no cell but those of its mnemonic and operand. -/
theorem exec_memoryKeptBut {i : Instr} {s t : State} (h : exec i s = .next t) :
    MemoryKeptBut s t (cellsWritten s i.operand i.op) := by
  intro addr haddr
  cases i <;> injection h with h <;> subst h
  case jsr => exact memoryKeptBut_push_push s _ _ addr haddr
  case pha | php => exact memoryKeptBut_push s _ addr haddr
  all_goals
    simp only [Instr.op, Instr.operand, cellsWritten, operandCells, List.mem_singleton] at haddr
    simp [haddr, State.readByte_writeByte]

/-! ### Host actions (R74) -/

theorem hostAct_of_not_stopped {s : State} (h : s.run ≠ .stopped) (e : HostEvent) : s.hostAct e = s.actOn e := by
  unfold State.hostAct
  split
  · exact absurd ‹_› h
  all_goals rfl

/-- A pending host action is the next move of a machine that is not stopped. -/
theorem step_of_hostEvent {s : State} {e : HostEvent} {rest : List HostEvent} (hrun : s.run ≠ .stopped)
    (hp : s.pending = e :: rest) (he : e ≠ .tick) : step s = .next ({ s with pending := rest }.actOn e) := by
  have hrun' : { s with pending := rest }.run ≠ .stopped := hrun
  rw [← hostAct_of_not_stopped hrun' e]
  cases e
  case tick => exact absurd rfl he
  all_goals simp only [step, hp]

end Sys2Proof.Machine

namespace Sys2Proof.Proofs

open Sys2Proof.Machine Sys2Proof.Claims

/-- Settles O21: a cell that changed is one that `cellsWritten` lists for the mnemonic and its operand. -/
theorem memoryWritersAreTheListed : Obligations.MemoryWritersAreTheListed := by
  intro i s t addr h hne
  have hwritten : addr ∈ cellsWritten s i.operand i.op := by_contra fun hkept => hne (exec_memoryKeptBut h addr hkept)
  exact mem_cellsWritten.mp hwritten

/-- Settles O25: 256 decrements of a byte are none. -/
theorem pushesWrapTheStackPointer : Obligations.PushesWrapTheStackPointer := by
  intro s vs hlen
  have hzero : BitVec.ofNat 8 256 = 0#8 := rfl
  rw [foldl_push_sp, hlen, hzero, BitVec.sub_zero]

/-- Settles O23: the read of the written cell, the frame of memory, and the fields that a byte write leaves. -/
theorem writesAreReadBack : Obligations.WritesAreReadBack := fun s addr v =>
  ⟨State.readByte_writeByte_same s addr v, memoryKeptBut_writeByte s addr v, rfl⟩

/-- Settles O24: after the decrement of the push the pull's increment designates the pushed cell again. -/
theorem pullReturnsThePushedByte : Obligations.PullReturnsThePushedByte := fun s v =>
  ⟨pullByte_push s v, BitVec.sub_add_cancel s.sp 1, rfl, readByte_push_same s v, memoryKeptBut_push s v⟩

/-- Settles O59: the key press is one byte write, at the keyboard cell. -/
theorem keyPressWritesTheKeyboardCell : Obligations.KeyPressWritesTheKeyboardCell := by
  intro s code rest hrun hp
  have hstep : step s = .next ({ s with pending := rest }.writeByte s.cfg.keyAddr code) :=
    step_of_hostEvent hrun hp nofun
  exact ⟨_, hstep, State.readByte_writeByte_same _ _ _, memoryKeptBut_writeByte _ _ _, rfl⟩

end Sys2Proof.Proofs

/-! ## Encoding, addressing and the step (30_encoding.md)

The decoder is settled by one equivalence, `decode_eq_ok_iff`: a list of bytes decodes to an instruction exactly when the
instruction's encoding is its head. It rests on the table holding each entry in one slot (`opSlot_injective`) and on
`Instr.make` being the inverse of the operand bytes (`operand_of_make`, `make_operand_bytes`). -/

namespace Sys2Proof

open Sys2Proof.Machine Sys2Proof.Claims

/-! ### The opcode table (R119 to R121) -/

/-- Every slot of the table is on the "Encoding" line of its mnemonic. -/
theorem opSlot_mem_encodingLine : ∀ opcode : Byte, ∀ e ∈ opSlot opcode, (opcode, e.2) ∈ encodingLine e.1 := by decide

/-- An "Encoding" line names a mode once. -/
theorem encodingLine_modes_nodup (o : Op) : ((encodingLine o).map Prod.snd).Nodup := by cases o <;> decide

/-- No entry (instruction, addressing mode) stands in two slots. -/
theorem opSlot_injective {c c' : Byte} {e : Op × Mode} (h : opSlot c = some e) (h' : opSlot c' = some e) : c = c' := by
  have hline : (c, e.2) = (c', e.2) :=
    List.inj_on_of_nodup_map (encodingLine_modes_nodup e.1) (opSlot_mem_encodingLine c e h)
      (opSlot_mem_encodingLine c' e h') rfl
  exact congrArg Prod.fst hline

/-- A slot's mnemonic takes the slot's mode. -/
theorem opSlot_mem_modes : ∀ opcode : Byte, ∀ e ∈ opSlot opcode, e.2 ∈ e.1.modes := by decide

/-- R121 lists the empty slots of R120 in rising order. -/
theorem undefinedOpcodes_eq_filter :
    undefinedOpcodes.map BitVec.toNat = (List.range 256).filter fun n => (opSlot (BitVec.ofNat 8 n)).isNone := by decide

theorem undefinedOpcodes_nodup : undefinedOpcodes.Nodup :=
  List.Nodup.of_map BitVec.toNat (undefinedOpcodes_eq_filter ▸ List.nodup_range.filter _)

theorem opSlot_eq_none_iff (opcode : Byte) : opSlot opcode = none ↔ opcode ∈ undefinedOpcodes := by
  have hlt : opcode.toNat < 256 := opcode.isLt
  rw [← List.mem_map_of_injective fun _ _ => BitVec.eq_of_toNat_eq, undefinedOpcodes_eq_filter, List.mem_filter]
  simp [hlt]

/-! ### The modes of a mnemonic (R103) -/

theorem mode_mem_modes (i : Instr) : i.mode ∈ i.op.modes := List.contains_iff_mem.mp (wellFormed_all i)

/-- The relative mode is that of the eight branches (R116). -/
theorem eq_rel_iff_branchTest {o : Op} {m : Mode} (h : m ∈ o.modes) : m = .rel ↔ (branchTest o).isSome := by
  revert m
  cases o <;> decide

/-- The accumulator mode is that of the shifts and rotates (R104). -/
theorem op_of_acc_mem_modes {o : Op} (h : .acc ∈ o.modes) : o ∈ [.ASL, .LSR, .ROL, .ROR] := by
  revert h
  cases o <;> decide

/-- The mode `zp,Y` is that of LDX and STX (R109). -/
theorem op_of_zpy_mem_modes {o : Op} (h : .zpy ∈ o.modes) : o = .LDX ∨ o = .STX := by
  revert h
  cases o <;> decide

/-! ### The operand bytes (R101) -/

theorem Operand.length_bytes (x : Operand) : x.bytes.length + 1 = x.mode.length := by
  cases x with
  | mem m => cases m <;> rfl
  | imp | acc | imm | ind | rel => rfl

theorem length_eq_bytes (i : Instr) : i.length = i.operand.bytes.length + 1 := (Operand.length_bytes i.operand).symm

theorem Mode.length_le (m : Mode) : m.length ≤ 3 := by cases m <;> decide

/-- A mode that the mnemonic takes makes an instruction of any two bytes. -/
theorem isSome_make {o : Op} {m : Mode} (h : m ∈ o.modes) (b1 b2 : Byte) : (Instr.make o m b1 b2).isSome := by
  revert m
  cases o <;> simp [Op.modes, Instr.make]

/-- What an entry makes of two bytes has the entry's mode, and as operand bytes those that its mode takes. -/
theorem operand_of_make {o : Op} {m : Mode} {b1 b2 : Byte} {i : Instr} (h : Instr.make o m b1 b2 = some i) :
    i.mode = m ∧ i.operand.bytes = [b1, b2].take (i.length - 1) := by
  cases o
  all_goals
    simp only [Instr.make] at h
    split at h <;> cases h
    all_goals
      simp [Instr.length, Instr.mode, Instr.operand, Operand.mode, MemOperand.mode, Operand.bytes, MemOperand.bytes,
        Mode.length]

/-- An instruction's own entry makes it of its operand bytes, whatever stands in the bytes that its mode does not take. -/
theorem make_operand_bytes {i : Instr} {b1 b2 : Byte} (h : i.operand.bytes = [b1, b2].take (i.length - 1)) :
    Instr.make i.op i.mode b1 b2 = some i := by
  cases i <;> cases h
  all_goals simp [Instr.make, Instr.op, Instr.mode, Instr.operand, Operand.mode, MemOperand.mode]

/-! ### Decoding (R100, R122) -/

/-- Three fetched bytes decode to an instruction exactly when the first is its opcode and the next are its operand bytes. -/
theorem decodeInstr_eq_some_iff {c b1 b2 : Byte} {i : Instr} :
    decodeInstr c b1 b2 = some i ↔ c = i.opcode ∧ i.operand.bytes = [b1, b2].take (i.length - 1) := by
  constructor
  · intro h
    unfold decodeInstr at h
    split at h
    · next o m hslot =>
      obtain ⟨hmode, hbytes⟩ := operand_of_make h
      rw [← op_of_make h, ← hmode] at hslot
      exact ⟨opSlot_injective hslot (opSlot_opcode i), hbytes⟩
    · cases h
  · rintro ⟨rfl, hbytes⟩
    rw [decodeInstr, opSlot_opcode]
    exact make_operand_bytes hbytes

/-- A slot that is not empty decodes, whatever follows it. -/
theorem decodeInstr_eq_none_iff {c b1 b2 : Byte} : decodeInstr c b1 b2 = none ↔ opSlot c = none := by
  cases hslot : opSlot c with
  | none => simp [decodeInstr, hslot]
  | some e =>
    have hmake := isSome_make (opSlot_mem_modes c e hslot) b1 b2
    simp [decodeInstr, hslot, Option.ne_none_iff_isSome.mpr hmake]

theorem decode_cons_eq_ok_iff {c : Byte} {tail rest : List Byte} {i : Instr} :
    decode (c :: tail) = .ok i rest ↔
      decodeInstr c (tail.getD 0 0) (tail.getD 1 0) = some i ∧ i.length ≤ tail.length + 1 ∧
        tail.drop (i.length - 1) = rest := by
  rw [decode]
  cases decodeInstr c (tail.getD 0 0) (tail.getD 1 0) with
  | none => simp
  | some j =>
    by_cases hlen : j.length ≤ tail.length + 1
    · simp only [hlen, if_true, DecodeResult.ok.injEq, Option.some.injEq]
      constructor
      · rintro ⟨rfl, rfl⟩
        exact ⟨rfl, hlen, rfl⟩
      · rintro ⟨rfl, -, rfl⟩
        exact ⟨rfl, rfl⟩
    · simp only [hlen, if_false, Option.some.injEq]
      constructor
      · nofun
      · rintro ⟨rfl, hlen', -⟩
        exact absurd hlen' hlen

/-- The decoder's zero padding is not seen in the first bytes of a list that is long enough. -/
theorem take_getD_pair {l : List Byte} {n : Nat} (hn : n ≤ 2) (hl : n ≤ l.length) :
    [l.getD 0 0, l.getD 1 0].take n = l.take n := by
  match n, l with
  | 0, _ => rfl
  | 1, _ :: _ => rfl
  | 2, _ :: _ :: _ => rfl

/-- A list of bytes decodes to an instruction exactly when it is that instruction's encoding and the bytes left over. -/
theorem decode_eq_ok_iff {bytes rest : List Byte} {i : Instr} :
    decode bytes = .ok i rest ↔ bytes = encode i ++ rest := by
  cases bytes with
  | nil => simp [decode, encode]
  | cons c tail =>
    have hle : i.length - 1 ≤ 2 := Nat.sub_le_sub_right (Mode.length_le i.mode) 1
    have hlen := length_eq_bytes i
    rw [decode_cons_eq_ok_iff, decodeInstr_eq_some_iff, encode, List.cons_append, List.cons.injEq]
    constructor
    · rintro ⟨⟨hc, hbytes⟩, htail, rfl⟩
      rw [take_getD_pair hle (by omega)] at hbytes
      exact ⟨hc, by rw [hbytes, List.take_append_drop]⟩
    · rintro ⟨hc, rfl⟩
      have htail : i.length - 1 = i.operand.bytes.length := by omega
      refine ⟨⟨hc, ?_⟩, ?_, ?_⟩
      · rw [take_getD_pair hle (by simp [htail]), htail, List.take_left]
      · simp [hlen]
      · rw [htail, List.drop_left]

end Sys2Proof

namespace Sys2Proof.Machine

open Sys2Proof.Claims

/-! ### Effective addresses (R65, R102 to R118) -/

theorem toNat_zext16 (b : Byte) : (zext16 b).toNat = b.toNat := BitVec.toNat_setWidth_of_le (by decide)

theorem zext16_eq_ofNat (b : Byte) : zext16 b = BitVec.ofNat 16 b.toNat := (BitVec.ofNat_toNat 16 b).symm

/-- `ZPRead16` is the pointer word in the zero page, for both values of `ZP_PTR_WRAP` (R65). -/
theorem toNat_readZpWord (s : State) (p : Byte) : (s.readZpWord p).toNat = zpPointer s p.toNat := by
  have hnext : zext16 (p + 1) = BitVec.ofNat 16 ((p.toNat + 1) % 256) := by rw [zext16_eq_ofNat, BitVec.toNat_add]; rfl
  have hcarry : zext16 p + 1 = BitVec.ofNat 16 (p.toNat + 1) := by rw [zext16_eq_ofNat, BitVec.ofNat_add]; rfl
  rw [State.readZpWord, toNat_wordOf, zpPointer, hnext, hcarry, zext16_eq_ofNat]
  cases s.cfg.zpPtrWrap <;> rfl

/-- The zero page wraps (R108, R109). -/
theorem toNat_zext16_add (b c : Byte) : (zext16 (b + c)).toNat = (b.toNat + c.toNat) % 256 := by
  rw [toNat_zext16, BitVec.toNat_add]

/-- The address space wraps (R111, R112, R115). -/
theorem toNat_add_zext16 (w : Word) (c : Byte) : (w + zext16 c).toNat = (w.toNat + c.toNat) % 65536 := by
  rw [BitVec.toNat_add, toNat_zext16]

/-- Sign extension adds 65536 to a negative offset (R10). -/
theorem toNat_sext16 (b : Byte) : ((sext16 b).toNat : Int) = b.toInt % 65536 := by
  have := b.isLt
  have hsum : (zext16 b + 0xFF00).toNat = (b.toNat + 0xFF00) % 65536 := by rw [BitVec.toNat_add, toNat_zext16]; rfl
  rw [BitVec.toInt_eq_toNat_cond, sext16]
  split
  · rw [toNat_zext16]
    split <;> omega
  · rw [hsum]
    split <;> omega

theorem toNat_branchTarget (pc : Word) (offset : Byte) :
    ((branchTarget pc offset).toNat : Int) = (pc.toNat + 2 + offset.toInt) % 65536 := by
  have hoffset := toNat_sext16 offset
  have htwo : (2 : Word).toNat = 2 := rfl
  rw [branchTarget, BitVec.toNat_add, BitVec.toNat_add]
  omega

/-! ### The outcome of an instruction (R124) -/

@[simp] theorem branch_suppress (c : Prop) [Decidable c] (s : State) (target : Word) :
    (if c then s.jump target else s.advance).suppress = decide c := by split <;> simp [*]

/-- The signal is raised by the jumps and by a branch that is taken (R40, R124). -/
theorem exec_suppress_iff {i : Instr} {s t : State} (h : exec i s = .next t) :
    t.suppress = true ↔ i.op ∈ [.JMP, .JSR, .RTS, .RTI] ∨ BranchTaken i.op s := by
  cases i <;> injection h with h <;> subst h <;> simp [Instr.op, BranchTaken, branchTest]

/-! ### The step (R123) -/

theorem schedulerTick_of_canStep {s : State} (hc : s.canStep = true) : schedulerTick s = runInstruction s := by
  obtain ⟨hrun, -, -⟩ := (canStep_iff s).mp hc
  simp [schedulerTick, hrun, hc]

/-- A tick of a machine that may step is a step of R123. -/
theorem step_of_tickOf {s s' : State} (h : TickOf s s') (hc : s'.canStep = true) : step s = runInstruction s' := by
  obtain ⟨hp, rfl⟩ | ⟨rest, hp, rfl⟩ := h
  · exact step_of_canStep hp hc
  · rw [← schedulerTick_of_canStep hc]
    simp only [step, hp]

/-- A tick that runs an instruction completes the step from the state that the instruction left. -/
theorem step_of_fetchInstr {s s' t : State} {i : Instr} (h : TickOf s s') (hc : s'.canStep = true)
    (hf : s.fetchInstr = some i) (ht : exec i { s' with backupPC := s.pc } = .next t) :
    step s = .next (t.completeStep i.length) := by
  rw [step_of_tickOf h hc, runInstruction]
  obtain ⟨rest, rfl⟩ := eq_with_pending_of_tickOf h
  have hf' : State.fetchInstr { s with pending := rest } = some i := hf
  have ht' : exec i (State.snapshotPC { s with pending := rest }) = .next t := ht
  simp only [hf', ht']

end Sys2Proof.Machine

namespace Sys2Proof.Proofs

open Sys2Proof.Machine Sys2Proof.Claims

/-- Settles O1: the left-over bytes of `decode_eq_ok_iff` are any bytes. -/
theorem decodeInvertsEncode : Obligations.DecodeInvertsEncode := fun _ _ => decode_eq_ok_iff.mpr rfl

/-- Settles O2, by the other direction of `decode_eq_ok_iff`. -/
theorem encodeInvertsDecode : Obligations.EncodeInvertsDecode := fun _ _ _ => decode_eq_ok_iff.mp

/-- Settles O3: decoding fails exactly at an empty slot, and the list is that of the empty slots. -/
theorem undefinedOpcodesAreTheListed : Obligations.UndefinedOpcodesAreTheListed := by
  refine ⟨rfl, undefinedOpcodes_nodup, fun opcode b1 b2 => ?_⟩
  rw [decodeInstr_eq_none_iff, opSlot_eq_none_iff]

/-- Settles O4: each word is the encoding of its instruction. -/
theorem writtenOutWordsDecode : Obligations.WrittenOutWordsDecode :=
  ⟨decode_eq_ok_iff.mpr rfl, decode_eq_ok_iff.mpr rfl, decode_eq_ok_iff.mpr rfl, decode_eq_ok_iff.mpr rfl,
    decode_eq_ok_iff.mpr rfl, decode_eq_ok_iff.mpr rfl, decode_eq_ok_iff.mpr rfl, decode_eq_ok_iff.mpr rfl⟩

/-- Settles O5: the three bytes that the decoder is given are those the step fetches. -/
theorem stepRunsTheFetchedInstruction : Obligations.StepRunsTheFetchedInstruction := by
  intro s s' i rest htick hc hdecode
  obtain ⟨hf, -, -⟩ := decode_cons_eq_ok_iff.mp hdecode
  obtain ⟨t, ht⟩ := exec_next i { s' with backupPC := s.pc }
  rw [step_of_fetchInstr htick hc hf ht, ht]

/-- Settles O6: `exec_frame` says what the instruction left of the scheduler's fields, and the `completeStep` lemmas what the
end of the step makes of them. -/
theorem executedStepEffects : Obligations.ExecutedStepEffects := by
  intro s s' t i htick hc hf ht
  refine ⟨t.completeStep i.length, step_of_fetchInstr htick hc hf ht, ?_⟩
  obtain ⟨rest, rfl⟩ := eq_with_pending_of_tickOf htick
  have hrunning : s.run = .running := ((canStep_iff _).mp hc).1
  obtain ⟨hrun, hcount, hinterval, hbackup, -, hcfg, hdraws, hpending, hpc, -⟩ := exec_frame ht
  obtain ⟨ha, hx, hy, hsp, hp, -, hhalted, hbackup', hcfg', hpending'⟩ := State.completeStep_frame t i.length
  refine ⟨?pc, State.completeStep_suppress t _, ?count, ?interval, hbackup'.trans hbackup, ?entropy, ?draws, ?memory,
    ha, hx, hy, hsp, hp, hhalted, ?run, hcfg'.trans hcfg, hpending'.trans hpending⟩
  case pc =>
    rw [State.completeStep_pc]
    cases hsignal : t.suppress with
    | true => rfl
    | false => rw [hpc hsignal]
  case count => rw [State.completeStep_count, hcount]
  case interval => rw [State.completeStep_intervalCount, hinterval]
  case entropy => simp [State.readByte_completeStep, State.entropyByte, hcfg, hdraws]
  case draws => rw [State.completeStep_draws, hdraws]
  case memory =>
    intro addr haddr
    rw [State.readByte_completeStep, hcfg, if_neg (List.ne_of_not_mem_cons haddr)]
  case run => rw [State.completeStep_run, hrun, hrunning]

/-- Settles O22: the signal by `exec_suppress_iff`, PC by `exec_frame`. -/
theorem jumpOutcomesAreTheListed : Obligations.JumpOutcomesAreTheListed := by
  intro i s t h
  obtain ⟨-, -, -, -, -, -, -, -, hpc, -⟩ := exec_frame h
  exact ⟨exec_suppress_iff h, hpc⟩

/-- Settles O27: the pointer word is `toNat_readZpWord`, indexed before the read or after it. -/
theorem indirectEffectiveAddresses : Obligations.IndirectEffectiveAddresses := by
  intro s b w
  refine ⟨rfl, ?_, ?_⟩
  · rw [State.ea, toNat_readZpWord, BitVec.toNat_add]
  · rw [State.ea, toNat_add_zext16, toNat_readZpWord]

/-- Settles O28: the target by `toNat_branchTarget`, the branches by the modes that mnemonics take. -/
theorem relativeTargets : Obligations.RelativeTargets :=
  ⟨toNat_branchTarget, rfl, fun i => eq_rel_iff_branchTest (mode_mem_modes i)⟩

/-- Settles O26: the readers and writers are those of memory at the effective address, which wraps in the zero page or in the
address space. -/
theorem operandsAndDirectEffectiveAddresses : Obligations.OperandsAndDirectEffectiveAddresses := by
  intro s b v w m
  exact ⟨rfl, rfl, rfl, rfl, rfl, State.readByte_writeByte_same s (s.ea m) v, memoryKeptBut_writeByte s (s.ea m) v,
    rfl, fun i hi => op_of_acc_mem_modes (hi ▸ mode_mem_modes i), rfl, toNat_zext16 b, rfl, toNat_zext16_add b s.x, rfl,
    toNat_zext16_add b s.y, rfl, fun i hi => op_of_zpy_mem_modes (hi ▸ mode_mem_modes i),
    toNat_add_zext16 w s.x, rfl, toNat_add_zext16 w s.y, rfl⟩

end Sys2Proof.Proofs

/-! ## Arithmetic (40_arithmetic.md)

The flags and the frame of an operation are said once for the flag computation it ends in: `SetNZ`, `Compare`, and the write of
an adder's result. What an adder computes is said in numbers: `binAdd` of A and of the operand or its complement (R151, R155),
and the decimal adder and subtractor digit by digit (R152, R153). -/

namespace Sys2Proof.Machine

open Sys2Proof.Claims

/-- The "Encoding" line of the instruction's mnemonic. -/
theorem encodedAs_of_op {i : Instr} {o : Op} (h : i.op = o) : EncodedAs i (encodingLine o) := h ▸ mem_encodingLine i

/-! ### Flags and frame of the flag computations (R150, R154 to R156) -/

theorem nzOf_setNZ (s : State) (v : Byte) : NZOf (s.setNZ v).advance v := by
  simp [NZOf, State.flag_setNZ, beq_eq_decide]

theorem flagsKept_setNZ (s : State) (v : Byte) : FlagsKept s (s.setNZ v).advance [.N, .Z] := by
  intro f hf
  rw [List.mem_pair, not_or] at hf
  obtain ⟨hn, hz⟩ := hf
  rw [State.flag_advance, State.flag_setNZ, if_neg hn, if_neg hz]

/-- INC and DEC leave their result in the cell and in N and Z, and nothing else (R160, R161). -/
theorem writeByte_setNZ_advance_frame (s : State) (addr : Word) (r : Byte) :
    ((s.writeByte addr r).setNZ r).advance.readByte addr = r ∧
      MemoryKeptBut s ((s.writeByte addr r).setNZ r).advance [addr] ∧
      NZOf ((s.writeByte addr r).setNZ r).advance r ∧ FlagsKept s ((s.writeByte addr r).setNZ r).advance [.N, .Z] ∧
      ((s.writeByte addr r).setNZ r).advance =
        { s with
          mem := (s.writeByte addr r).mem
          entropy := (s.writeByte addr r).entropy
          p := ((s.writeByte addr r).setNZ r).p
          suppress := false } :=
  ⟨State.readByte_writeByte_same s addr r, memoryKeptBut_writeByte s addr r, nzOf_setNZ _ r,
    flagsKept_setNZ (s.writeByte addr r) r, rfl⟩

/-- The flags that ADC and SBC do not write, and the fields beside A and P (R154, R155). -/
theorem setAlu_advance_frame (s : State) (out : AluResult) :
    NZOf (s.setAlu out).advance out.r ∧ FlagsKept s (s.setAlu out).advance [.N, .Z, .C, .V] ∧
      MemoryKept s (s.setAlu out).advance ∧
      (s.setAlu out).advance = { s with a := out.r, p := (s.setAlu out).p, suppress := false } := by
  refine ⟨nzOf_setNZ _ out.r, fun f hf => ?_, fun addr => rfl, rfl⟩
  simp only [List.mem_cons, List.not_mem_nil, or_false, not_or] at hf
  simp [State.flag_setAlu, hf]

theorem flag_setAlu_advance_carry (s : State) (out : AluResult) : (s.setAlu out).advance.flag .C = out.carry := by
  simp [State.flag_setAlu]

theorem flag_setAlu_advance_overflow (s : State) (out : AluResult) :
    (s.setAlu out).advance.flag .V = out.overflow := by
  simp [State.flag_setAlu]

/-! ### Bytes as numbers -/

theorem getLsbD_seven (v : Byte) : v.getLsbD 7 = decide (128 ≤ v.toNat) :=
  (BitVec.msb_eq_getLsbD_last v).symm.trans (BitVec.msb_eq_decide v)

theorem toNat_add_one (v : Byte) : (v + 1).toNat = (v.toNat + 1) % 256 := BitVec.toNat_add v 1

theorem toNat_sub_one (v : Byte) : (v - 1).toNat = (v.toNat + 255) % 256 := by bv_omega

theorem toInt_complement (v : Byte) : (~~~v).toInt = -v.toInt - 1 := by
  have := v.isLt
  rw [BitVec.toInt_eq_toNat_cond, BitVec.toInt_eq_toNat_cond, BitVec.toNat_not]
  omega

/-- The borrow is the complement of the carry (R155, D13). -/
theorem carry_add_borrow (c : Bool) : c.toNat + (!c).toNat = 1 := by cases c <;> rfl

/-! ### The compares (R156) -/

/-- N is that of the wrapped difference, which is 0 between equal bytes. -/
theorem compare_advance_spec (s : State) (reg m : Byte) :
    (s.compare reg m).advance.flag .C = decide (m.toNat ≤ reg.toNat) ∧
      (s.compare reg m).advance.flag .Z = decide (reg = m) ∧
      (s.compare reg m).advance.flag .N = decide (128 ≤ (reg.toNat + 256 - m.toNat) % 256) ∧
      FlagsKept s (s.compare reg m).advance [.N, .Z, .C] ∧ MemoryKept s (s.compare reg m).advance ∧
      (s.compare reg m).advance = { s with p := (s.compare reg m).advance.p, suppress := false } := by
  refine ⟨?carry, ?zero, ?negative, ?flags, fun addr => State.readByte_compare s reg m addr, ?frame⟩
  case carry => simp [State.flag_compare]
  case zero => simp [State.flag_compare]
  case negative =>
    have hdiff : (reg - m).toNat = (reg.toNat + 256 - m.toNat) % 256 := by bv_omega
    rw [State.flag_advance, State.flag_compare, getLsbD_seven, hdiff]
    rfl
  case flags =>
    intro f hf
    simp only [List.mem_cons, List.not_mem_nil, or_false, not_or] at hf
    simp [State.flag_compare, hf]
  case frame =>
    unfold State.compare
    split_ifs <;> rfl

/-! ### The binary adder (R151, R155) -/

theorem toNat_binAdd (a m : Byte) (c : Bool) : (binAdd a m c).r.toNat = binSum a m c % 256 :=
  BitVec.toNat_ofNat _ 8

/-- The sum has nine bits, and the carry is the ninth. -/
theorem binAdd_carry (a m : Byte) (c : Bool) : (binAdd a m c).carry = (binSum a m c).testBit 8 := by
  have := a.isLt
  have := m.isLt
  have := c.toNat_le
  rw [Nat.testBit_eq_decide_div_mod_eq, binAdd, decide_eq_decide, binSum]
  omega

theorem binAdd_overflow (a m : Byte) (c : Bool) :
    (binAdd a m c).overflow =
      (decide (a.getLsbD 7 = m.getLsbD 7) && decide ((binAdd a m c).r.getLsbD 7 ≠ a.getLsbD 7)) := by
  simp [binAdd, beq_eq_decide, bne]

/-- The rule on signs is signed overflow. -/
theorem binAdd_overflow_eq_signed (a m : Byte) (c : Bool) :
    (binAdd a m c).overflow = decide (a.toInt + m.toInt + c.toNat < -128 ∨ 127 < a.toInt + m.toInt + c.toNat) := by
  have := a.isLt
  have := m.isLt
  have := c.toNat_le
  rw [binAdd_overflow, ← Bool.decide_and, decide_eq_decide]
  simp only [getLsbD_seven, toNat_binAdd, binSum, BitVec.toInt_eq_toNat_cond, ne_eq, decide_eq_decide]
  omega

/-- Adding the complement and the carry is subtracting the operand and the borrow, and 256. -/
theorem binSum_complement (a m : Byte) (c : Bool) :
    (binSum a (~~~m) c : Int) = 256 + (a.toNat - m.toNat - (!c).toNat) := by
  have := m.isLt
  have := carry_add_borrow c
  rw [binSum, BitVec.toNat_not]
  omega

theorem toNat_binAdd_complement (a m : Byte) (c : Bool) :
    ((binAdd a (~~~m) c).r.toNat : Int) = (a.toNat - m.toNat - (!c).toNat) % 256 := by
  rw [toNat_binAdd, Int.natCast_mod, binSum_complement]
  omega

theorem binAdd_complement_carry (a m : Byte) (c : Bool) :
    (binAdd a (~~~m) c).carry = decide ((0 : Int) ≤ a.toNat - m.toNat - (!c).toNat) := by
  have := binSum_complement a m c
  rw [binAdd, decide_eq_decide]
  omega

theorem binAdd_complement_overflow (a m : Byte) (c : Bool) :
    (binAdd a (~~~m) c).overflow =
      decide (a.toInt - m.toInt - (!c).toNat < -128 ∨ 127 < a.toInt - m.toInt - (!c).toNat) := by
  have hexact : a.toInt + (~~~m).toInt + c.toNat = a.toInt - m.toInt - (!c).toNat := by
    have := carry_add_borrow c
    rw [toInt_complement]
    omega
  rw [binAdd_overflow_eq_signed, hexact]

/-! ### The decimal adder and subtractor (R152, R153; D11, D13) -/

/-- The low digit's sum before its correction. -/
def lowSum (a m : Byte) (c : Bool) : Nat := a.toNat % 16 + m.toNat % 16 + c.toNat

/-- The high digit's sum before its correction. -/
def highSum (a m : Byte) (c : Bool) : Nat := a.toNat / 16 + m.toNat / 16 + (if 9 < lowSum a m c then 1 else 0)

/-- The low digit's difference before its correction. -/
def lowDiff (a m : Byte) (c : Bool) : Int := (a.toNat % 16 : Nat) - (m.toNat % 16 : Nat) - (!c).toNat

/-- The high digit's difference before its correction. -/
def highDiff (a m : Byte) (c : Bool) : Int :=
  (a.toNat / 16 : Nat) - (m.toNat / 16 : Nat) - (if lowDiff a m c < 0 then 1 else 0)

/-- The decimal adder through the sums of its digits (R152). -/
theorem decAdd_eq (a m : Byte) (c : Bool) :
    decAdd a m c =
      { r := byteOfNibbles (decDigitAdd (highSum a m c)).1 (decDigitAdd (lowSum a m c)).1
        carry := decide (9 < highSum a m c)
        overflow := (binAdd a m c).overflow } := by
  have hcarry : (decDigitAdd (lowSum a m c)).2.toNat = if 9 < lowSum a m c then 1 else 0 := by
    rw [decDigitAdd_carry]
    exact Bool.cond_decide _ 1 0
  rw [← decDigitAdd_carry, highSum, ← hcarry]
  rfl

/-- The decimal subtractor through the differences of its digits (R153). -/
theorem decSub_eq (a m : Byte) (c : Bool) :
    decSub a m c =
      { r := byteOfNibbles ((decDigitSub (highDiff a m c)).1 % 16).toNat ((decDigitSub (lowDiff a m c)).1 % 16).toNat
        carry := decide (0 ≤ highDiff a m c)
        overflow := (binAdd a (~~~m) c).overflow } := by
  have hborrow : ((decDigitSub (lowDiff a m c)).2.toNat : Int) = if lowDiff a m c < 0 then 1 else 0 := by
    rw [decDigitSub_borrow]
    split <;> simp [*]
  have hcarry : decide (0 ≤ highDiff a m c) = !(decDigitSub (highDiff a m c)).2 := by
    rw [decDigitSub_borrow, ← decide_not, decide_eq_decide, Int.not_lt]
  rw [hcarry, highDiff, ← hborrow]
  rfl

theorem decAdd_carry (a m : Byte) (c : Bool) : (decAdd a m c).carry = decide (9 < highSum a m c) :=
  congrArg AluResult.carry (decAdd_eq a m c)

theorem decSub_carry (a m : Byte) (c : Bool) : (decSub a m c).carry = decide (0 ≤ highDiff a m c) :=
  congrArg AluResult.carry (decSub_eq a m c)

theorem toNat_decAdd (a m : Byte) (c : Bool) :
    (decAdd a m c).r.toNat =
      (if 9 < highSum a m c then highSum a m c - 10 else highSum a m c) % 16 * 16 +
        (if 9 < lowSum a m c then lowSum a m c - 10 else lowSum a m c) % 16 := by
  rw [decAdd_eq, toNat_byteOfNibbles, decDigitAdd_digit, decDigitAdd_digit]

theorem toNat_decSub (a m : Byte) (c : Bool) :
    ((decSub a m c).r.toNat : Int) =
      (if highDiff a m c < 0 then highDiff a m c + 10 else highDiff a m c) % 16 * 16 +
        (if lowDiff a m c < 0 then lowDiff a m c + 10 else lowDiff a m c) % 16 := by
  rw [decSub_eq, toNat_byteOfNibbles, decDigitSub_digit, decDigitSub_digit]
  omega

/-- A byte of two decimal digits. -/
theorem bcdValue_of_digits {v : Byte} {hi lo : Int} (hhi : 0 ≤ hi ∧ hi ≤ 9) (hlo : 0 ≤ lo ∧ lo ≤ 9)
    (hv : (v.toNat : Int) = hi % 16 * 16 + lo % 16) : BcdValid v ∧ (bcdValue v : Int) = hi * 10 + lo := by
  unfold BcdValid bcdValue
  omega

/-- On valid operands the decimal sum is the sum of two-digit numbers, and the carry its hundred (R152). -/
theorem decAdd_modulo_100 {a m : Byte} (ha : BcdValid a) (hm : BcdValid m) (c : Bool) :
    BcdValid (decAdd a m c).r ∧ bcdValue (decAdd a m c).r = (bcdValue a + bcdValue m + c.toNat) % 100 ∧
      ((decAdd a m c).carry = true ↔ 100 ≤ bcdValue a + bcdValue m + c.toNat) := by
  obtain ⟨hahi, halo⟩ := ha
  obtain ⟨hmhi, hmlo⟩ := hm
  have hc := c.toNat_le
  have hlow : lowSum a m c = a.toNat % 16 + m.toNat % 16 + c.toNat := rfl
  have hhigh : highSum a m c = a.toNat / 16 + m.toNat / 16 + (if 9 < lowSum a m c then 1 else 0) := rfl
  have hr : ((decAdd a m c).r.toNat : Int) = _ := congrArg Nat.cast (toNat_decAdd a m c)
  push_cast at hr
  obtain ⟨hvalid, hvalue⟩ := bcdValue_of_digits (by split_ifs at * <;> omega) (by split_ifs <;> omega) hr
  refine ⟨hvalid, ?_⟩
  rw [decAdd_carry, decide_eq_true_eq]
  unfold bcdValue at *
  split_ifs at * <;> omega

/-- On valid operands the decimal difference is that of two-digit numbers modulo 100, and the carry says that it did not
borrow (R153). -/
theorem decSub_modulo_100 {a m : Byte} (ha : BcdValid a) (hm : BcdValid m) (c : Bool) :
    BcdValid (decSub a m c).r ∧
      (bcdValue (decSub a m c).r : Int) = ((bcdValue a : Int) - bcdValue m - (!c).toNat) % 100 ∧
      ((decSub a m c).carry = true ↔ bcdValue m + (!c).toNat ≤ bcdValue a) := by
  obtain ⟨hahi, halo⟩ := ha
  obtain ⟨hmhi, hmlo⟩ := hm
  have hc := (!c).toNat_le
  have hlow : lowDiff a m c = (a.toNat % 16 : Nat) - (m.toNat % 16 : Nat) - (!c).toNat := rfl
  have hhigh : highDiff a m c =
      (a.toNat / 16 : Nat) - (m.toNat / 16 : Nat) - (if lowDiff a m c < 0 then 1 else 0) := rfl
  obtain ⟨hvalid, hvalue⟩ :=
    bcdValue_of_digits (by split_ifs at * <;> omega) (by split_ifs <;> omega) (toNat_decSub a m c)
  refine ⟨hvalid, ?_⟩
  rw [decSub_carry, decide_eq_true_eq]
  unfold bcdValue at *
  split_ifs at * <;> omega

theorem source_operand_injective {src src' : Source} (h : src.operand = src'.operand) : src = src' := by
  cases src <;> cases src' <;> cases h <;> rfl

end Sys2Proof.Machine

namespace Sys2Proof.Proofs

open Sys2Proof.Machine Sys2Proof.Claims

/-- Settles O38: the cell by the byte write, the flags by `SetNZ`. -/
theorem incAndDecChangeTheCellByOne : Obligations.IncAndDecChangeTheCellByOne := by
  intro i s
  refine ⟨fun h => ⟨encodedAs_of_op h, ?inc⟩, fun h => ⟨encodedAs_of_op h, ?dec⟩⟩
  case inc =>
    obtain ⟨m, hm, ht⟩ := exec_INC h s
    exact ⟨m, _, s.readByte (s.ea m) + 1, hm, ht, toNat_add_one _, writeByte_setNZ_advance_frame s (s.ea m) _⟩
  case dec =>
    obtain ⟨m, hm, ht⟩ := exec_DEC h s
    exact ⟨m, _, s.readByte (s.ea m) - 1, hm, ht, toNat_sub_one _, writeByte_setNZ_advance_frame s (s.ea m) _⟩

/-- Settles O39: the register by its write, the flags by `SetNZ`. -/
theorem indexRegistersCountByOne : Obligations.IndexRegistersCountByOne := by
  intro i s
  refine ⟨fun h => ?inx, fun h => ?iny, fun h => ?dex, fun h => ?dey⟩
  case inx =>
    exact ⟨encodedAs_of_op h, _, exec_INX h s, toNat_add_one s.x, nzOf_setNZ _ _, flagsKept_setNZ (s.setX _) _,
      fun _ => rfl, rfl⟩
  case iny =>
    exact ⟨encodedAs_of_op h, _, exec_INY h s, toNat_add_one s.y, nzOf_setNZ _ _, flagsKept_setNZ (s.setY _) _,
      fun _ => rfl, rfl⟩
  case dex =>
    exact ⟨encodedAs_of_op h, _, exec_DEX h s, toNat_sub_one s.x, nzOf_setNZ _ _, flagsKept_setNZ (s.setX _) _,
      fun _ => rfl, rfl⟩
  case dey =>
    exact ⟨encodedAs_of_op h, _, exec_DEY h s, toNat_sub_one s.y, nzOf_setNZ _ _, flagsKept_setNZ (s.setY _) _,
      fun _ => rfl, rfl⟩

/-- Settles O40: with D clear ADC writes the result of `binAdd`. -/
theorem adcBinaryIsTheNineBitSum : Obligations.AdcBinaryIsTheNineBitSum := by
  intro i s h hd
  obtain ⟨src, hsrc, ht⟩ := exec_ADC h s
  rw [opADC, hd] at ht
  exact ⟨encodedAs_of_op h, src, _, _, hsrc, ht, rfl, toNat_binAdd _ _ _,
    (flag_setAlu_advance_carry s _).trans (binAdd_carry _ _ _),
    (flag_setAlu_advance_overflow s _).trans (binAdd_overflow _ _ _),
    (flag_setAlu_advance_overflow s _).trans (binAdd_overflow_eq_signed _ _ _), setAlu_advance_frame s _⟩

/-- Settles O41: with D clear SBC adds the operand's complement. -/
theorem sbcBinaryIsTheDifference : Obligations.SbcBinaryIsTheDifference := by
  intro i s h hd
  obtain ⟨src, hsrc, ht⟩ := exec_SBC h s
  rw [opSBC, hd] at ht
  exact ⟨encodedAs_of_op h, src, _, _, _, hsrc, ht, rfl, rfl, toNat_binAdd_complement _ _ _,
    (flag_setAlu_advance_carry s _).trans (binAdd_complement_carry _ _ _),
    (flag_setAlu_advance_overflow s _).trans (binAdd_complement_overflow _ _ _), setAlu_advance_frame s _⟩

/-- Settles O42: with D set ADC writes the result of `decAdd`. -/
theorem adcDecimalAddsByDigits : Obligations.AdcDecimalAddsByDigits := by
  intro i s h hd
  obtain ⟨src, hsrc, ht⟩ := exec_ADC h s
  rw [opADC, hd] at ht
  exact ⟨src, _, _, _, _, hsrc, ht, rfl, rfl, rfl, toNat_decAdd _ _ _,
    (flag_setAlu_advance_carry s _).trans (decAdd_carry _ _ _),
    (flag_setAlu_advance_overflow s _).trans (binAdd_overflow_eq_signed _ _ _), setAlu_advance_frame s _⟩

/-- Settles O43: with D set SBC writes the result of `decSub`. -/
theorem sbcDecimalSubtractsByDigits : Obligations.SbcDecimalSubtractsByDigits := by
  intro i s h hd
  obtain ⟨src, hsrc, ht⟩ := exec_SBC h s
  rw [opSBC, hd] at ht
  exact ⟨src, _, _, _, _, _, hsrc, ht, rfl, rfl, rfl, rfl, toNat_decSub _ _ _,
    (flag_setAlu_advance_carry s _).trans (decSub_carry _ _ _),
    (flag_setAlu_advance_overflow s _).trans (binAdd_complement_overflow _ _ _), setAlu_advance_frame s _⟩

/-- Settles O44: `decAdd` and `decSub` on valid operands. -/
theorem decimalArithmeticIsModulo100 : Obligations.DecimalArithmeticIsModulo100 := by
  intro i s t src hsrc ht hd ha hm
  refine ⟨fun h => ?adc, fun h => ?sbc⟩
  case adc =>
    obtain ⟨src', hsrc', ht'⟩ := exec_ADC h s
    obtain rfl := source_operand_injective (hsrc.symm.trans hsrc')
    rw [ht', opADC, hd] at ht
    cases ht
    rw [flag_setAlu_advance_carry]
    exact decAdd_modulo_100 ha hm (s.flag .C)
  case sbc =>
    obtain ⟨src', hsrc', ht'⟩ := exec_SBC h s
    obtain rfl := source_operand_injective (hsrc.symm.trans hsrc')
    rw [ht', opSBC, hd] at ht
    cases ht
    rw [flag_setAlu_advance_carry]
    exact decSub_modulo_100 ha hm (s.flag .C)

/-- Settles O45: the three compares are `Compare` of their register. -/
theorem comparesSetNZC : Obligations.ComparesSetNZC := by
  intro i s o reg line hline h
  simp only [List.mem_cons, List.not_mem_nil, or_false, Prod.mk.injEq] at hline
  obtain ⟨rfl, rfl, rfl⟩ | ⟨rfl, rfl, rfl⟩ | ⟨rfl, rfl, rfl⟩ := hline
  · obtain ⟨src, hsrc, ht⟩ := exec_CMP h s
    exact ⟨encodedAs_of_op h, src, _, hsrc, ht, compare_advance_spec s s.a _⟩
  · obtain ⟨src, hsrc, ht⟩ := exec_CPX h s
    exact ⟨encodedAs_of_op h, src, _, hsrc, ht, compare_advance_spec s s.x _⟩
  · obtain ⟨src, hsrc, ht⟩ := exec_CPY h s
    exact ⟨encodedAs_of_op h, src, _, hsrc, ht, compare_advance_spec s s.y _⟩

end Sys2Proof.Proofs

/-! ## Logic, shifts and rotates (41_logic_shift.md)

The three logical instructions end in one write of A with its N and Z, and the four shifts and rotates in one write of the
target with C, N and Z; flags and frame are said once for each of the two. What a shift or rotate computes is said in
numbers. -/

namespace Sys2Proof.Machine

open Sys2Proof.Claims

/-! ### Flags and frame (R190 to R197) -/

/-- AND, ORA and EOR leave their result in A and in N and Z, and nothing else (R190 to R192). -/
theorem setA_setNZ_advance_frame (s : State) (r : Byte) :
    NZOf ((s.setA r).setNZ r).advance r ∧ FlagsKept s ((s.setA r).setNZ r).advance [.N, .Z] ∧
      MemoryKept s ((s.setA r).setNZ r).advance ∧
      ((s.setA r).setNZ r).advance = { s with a := r, p := ((s.setA r).setNZ r).p, suppress := false } :=
  ⟨nzOf_setNZ _ r, flagsKept_setNZ (s.setA r) r, fun _ => rfl, rfl⟩

theorem flag_setShift_advance_carry (s : State) (carry : Bool) (r : Byte) :
    (s.setShift carry r).advance.flag .C = carry := by
  simp [State.flag_setShift]

theorem nzOf_setShift (s : State) (carry : Bool) (r : Byte) : NZOf (s.setShift carry r).advance r :=
  nzOf_setNZ (s.setFlag .C carry) r

theorem flagsKept_setShift (s : State) (carry : Bool) (r : Byte) :
    FlagsKept s (s.setShift carry r).advance [.C, .N, .Z] := by
  intro f hf
  simp only [List.mem_cons, List.not_mem_nil, or_false, not_or] at hf
  obtain ⟨hc, hn, hz⟩ := hf
  rw [State.flag_advance, State.flag_setShift, if_neg hn, if_neg hz, if_neg hc]

/-- The write of a target's result, of P and of the signal (R104): A, or the one cell at the effective address. -/
theorem wrote_writeTarget (s : State) (dst : Target) (r p : Byte) :
    Wrote s { s.writeTarget dst r with p := p, suppress := false } dst r := by
  cases dst with
  | acc => exact ⟨fun _ => rfl, rfl⟩
  | mem m => exact ⟨State.readByte_writeByte_same s (s.ea m) r, memoryKeptBut_writeByte s (s.ea m) r, rfl⟩

theorem setShift_advance_eq (s : State) (carry : Bool) (r : Byte) :
    (s.setShift carry r).advance = { s with p := (s.setShift carry r).p, suppress := false } := rfl

/-- A shift or rotate leaves its result in the target and in N and Z, its carry in C, and nothing else (R194 to R197). -/
theorem writeTarget_setShift_advance_frame (s : State) (dst : Target) (carry : Bool) (r : Byte) :
    NZOf ((s.writeTarget dst r).setShift carry r).advance r ∧
      FlagsKept s ((s.writeTarget dst r).setShift carry r).advance [.C, .N, .Z] ∧
      Wrote s ((s.writeTarget dst r).setShift carry r).advance dst r := by
  refine ⟨nzOf_setShift _ carry r, fun f hf => ?flags, ?wrote⟩
  case flags => rw [flagsKept_setShift (s.writeTarget dst r) carry r f hf, State.flag_writeTarget]
  case wrote =>
    rw [setShift_advance_eq]
    exact wrote_writeTarget s dst r _

/-! ### The bits shifted out and in -/

theorem getLsbD_zero_eq_odd (m : Byte) : m.getLsbD 0 = decide (m.toNat % 2 = 1) := Nat.testBit_zero m.toNat

theorem getLsbD_seven_shiftRight (m : Byte) : (m >>> 1).getLsbD 7 = false := by
  rw [BitVec.getLsbD_ushiftRight]
  exact BitVec.getLsbD_of_ge m 8 le_rfl

theorem toNat_shiftLeft_one (m : Byte) : (m <<< 1).toNat = 2 * m.toNat % 256 := by
  rw [BitVec.toNat_shiftLeft, Nat.shiftLeft_eq, Nat.mul_comm]

theorem toNat_shiftRight_one (m : Byte) : (m >>> 1).toNat = m.toNat / 2 := by
  rw [BitVec.toNat_ushiftRight, Nat.shiftRight_one]

/-- The carry that enters a vacated bit adds that bit's value. -/
theorem toNat_or_carry {v : Byte} {k : Nat} (hv : v.getLsbD k = false) (hk : k < 8) (c : Bool) :
    (v ||| (if c then BitVec.twoPow 8 k else 0)).toNat = v.toNat + 2 ^ k * c.toNat := by
  cases c with
  | false => simp
  | true =>
    have hdisjoint : v &&& BitVec.twoPow 8 k = 0#8 := by simp [BitVec.and_twoPow, hv]
    rw [if_pos rfl, ← BitVec.add_eq_or_of_and_eq_zero _ _ hdisjoint, BitVec.toNat_add_of_and_eq_zero hdisjoint,
      BitVec.toNat_twoPow_of_lt hk, Bool.toNat_true, Nat.mul_one]

/-- The left shift vacates bit 0 (R196). -/
theorem toNat_rotateLeft (m : Byte) (c : Bool) :
    (m <<< 1 ||| (if c then 0x01 else 0x00)).toNat = (2 * m.toNat + c.toNat) % 256 := by
  have hvacated : (m <<< 1).getLsbD 0 = false := by simp
  have hc := c.toNat_le
  calc
    _ = (m <<< 1).toNat + 2 ^ 0 * c.toNat := toNat_or_carry hvacated (by decide) c
    _ = (2 * m.toNat + c.toNat) % 256 := by
      rw [toNat_shiftLeft_one]
      omega

/-- The right shift vacates bit 7 (R197). -/
theorem toNat_rotateRight (m : Byte) (c : Bool) :
    (m >>> 1 ||| (if c then 0x80 else 0x00)).toNat = m.toNat / 2 + 128 * c.toNat := by
  rw [← toNat_shiftRight_one]
  exact toNat_or_carry (getLsbD_seven_shiftRight m) (by decide) c

theorem getLsbD_seven_rotateRight (m : Byte) (c : Bool) :
    (m >>> 1 ||| (if c then 0x80 else 0x00)).getLsbD 7 = c := by
  rw [BitVec.getLsbD_or, getLsbD_seven_shiftRight, Bool.false_or]
  cases c <;> rfl

/-! ### BIT (R193) -/

/-- The flags come from the memory byte and from A, which is read and not written. -/
theorem opBIT_spec (m : MemOperand) (s : State) : ∃ t, opBIT m s = .next t ∧
    t.flag .Z = decide (s.a &&& s.readByte (s.ea m) = 0) ∧ t.flag .N = (s.readByte (s.ea m)).getLsbD 7 ∧
    t.flag .V = (s.readByte (s.ea m)).getLsbD 6 ∧ FlagsKept s t [.N, .Z, .V] ∧ MemoryKept s t ∧
    t = { s with p := t.p, suppress := false } := by
  refine ⟨_, rfl, ?zero, ?negative, ?overflow, ?flags, ?memory, rfl⟩
  case zero => simp [State.flag_setFlag, beq_eq_decide, State.readSource]
  case negative => simp [State.flag_setFlag, State.readSource]
  case overflow => simp [State.flag_setFlag, State.readSource]
  case flags =>
    intro f hf
    simp only [List.mem_cons, List.not_mem_nil, or_false, not_or] at hf
    obtain ⟨hn, hz, hv⟩ := hf
    simp [State.flag_setFlag, hn, hz, hv]
  case memory => exact fun addr => by simp

end Sys2Proof.Machine

namespace Sys2Proof.Proofs

open Sys2Proof.Machine Sys2Proof.Claims

/-- Settles O34: each operation on bytes is its Boolean operation on every bit. -/
theorem logicCombinesBitwise : Obligations.LogicCombinesBitwise := by
  intro i s
  refine ⟨fun h => ⟨encodedAs_of_op h, ?and⟩, fun h => ⟨encodedAs_of_op h, ?ora⟩,
    fun h => ⟨encodedAs_of_op h, ?eor⟩⟩
  case and =>
    obtain ⟨src, hsrc, ht⟩ := exec_AND h s
    exact ⟨src, _, hsrc, ht, fun _ => BitVec.getLsbD_and, setA_setNZ_advance_frame s _⟩
  case ora =>
    obtain ⟨src, hsrc, ht⟩ := exec_ORA h s
    exact ⟨src, _, hsrc, ht, fun _ => BitVec.getLsbD_or, setA_setNZ_advance_frame s _⟩
  case eor =>
    obtain ⟨src, hsrc, ht⟩ := exec_EOR h s
    exact ⟨src, _, hsrc, ht, fun _ => BitVec.getLsbD_xor, setA_setNZ_advance_frame s _⟩

/-- Settles O35: the three flag writes of BIT. -/
theorem bitTestsMemory : Obligations.BitTestsMemory := by
  intro i s h
  obtain ⟨m, hm, ht⟩ := exec_BIT h s
  obtain ⟨t, hop, hspec⟩ := opBIT_spec m s
  exact ⟨encodedAs_of_op h, m, t, hm, ht.trans hop, hspec⟩

/-- Settles O36: the shifted byte and the bit shifted out, as numbers. -/
theorem shiftsMoveOneBit : Obligations.ShiftsMoveOneBit := by
  intro i s
  refine ⟨fun h => ⟨encodedAs_of_op h, ?asl⟩, fun h => ⟨encodedAs_of_op h, ?lsr⟩⟩
  case asl =>
    obtain ⟨dst, hdst, ht⟩ := exec_ASL h s
    exact ⟨dst, _, _, hdst, ht, toNat_shiftLeft_one _,
      (flag_setShift_advance_carry _ _ _).trans (getLsbD_seven _), writeTarget_setShift_advance_frame s dst _ _⟩
  case lsr =>
    obtain ⟨dst, hdst, ht⟩ := exec_LSR h s
    obtain ⟨⟨hz, hn⟩, hkept⟩ :=
      writeTarget_setShift_advance_frame s dst ((s.readTarget dst).getLsbD 0) (s.readTarget dst >>> 1)
    exact ⟨dst, _, _, hdst, ht, toNat_shiftRight_one _,
      (flag_setShift_advance_carry _ _ _).trans (getLsbD_zero_eq_odd _), ⟨hz, hn⟩,
      hn.trans (getLsbD_seven_shiftRight _), hkept⟩

/-- Settles O37: as the shifts, with the previous carry in the vacated bit. -/
theorem rotatesGoThroughTheCarry : Obligations.RotatesGoThroughTheCarry := by
  intro i s
  refine ⟨fun h => ⟨encodedAs_of_op h, ?rol⟩, fun h => ⟨encodedAs_of_op h, ?ror⟩⟩
  case rol =>
    obtain ⟨dst, hdst, ht⟩ := exec_ROL h s
    exact ⟨dst, _, _, hdst, ht, toNat_rotateLeft _ _,
      (flag_setShift_advance_carry _ _ _).trans (getLsbD_seven _), writeTarget_setShift_advance_frame s dst _ _⟩
  case ror =>
    obtain ⟨dst, hdst, ht⟩ := exec_ROR h s
    obtain ⟨⟨hz, hn⟩, hkept⟩ := writeTarget_setShift_advance_frame s dst ((s.readTarget dst).getLsbD 0)
      (s.readTarget dst >>> 1 ||| (if s.flag .C then 0x80 else 0x00))
    exact ⟨dst, _, _, hdst, ht, toNat_rotateRight _ _,
      (flag_setShift_advance_carry _ _ _).trans (getLsbD_zero_eq_odd _), hn.trans (getLsbD_seven_rotateRight _ _),
      ⟨hz, hn⟩, hkept⟩

end Sys2Proof.Proofs

/-! ## Branches, jumps, calls and returns (42_control_flow.md)

The eight branches are one operation on the flag and the value that `branchTest` gives. A call and a return are said through the
two stack slots they use: what two pushes leave in them, and which of them successive pulls read. -/

namespace Sys2Proof

/-! ### The bytes of a word (R12) -/

theorem toNat_loByte (w : Word) : (loByte w).toNat = w.toNat % 256 := BitVec.toNat_setWidth 8 w

theorem toNat_hiByte (w : Word) : (hiByte w).toNat = w.toNat / 256 := by
  have := w.isLt
  rw [hiByte, BitVec.toNat_setWidth, BitVec.toNat_ushiftRight, Nat.shiftRight_eq_div_pow]
  omega

end Sys2Proof

namespace Sys2Proof.Machine

open Sys2Proof.Claims

/-! ### Branches (R220 to R228) -/

/-- A branch is taken exactly when the flag it tests has the value that takes it. -/
theorem exec_branch {i : Instr} {f : Flag} {v : Bool} (h : branchTest i.op = some (f, v)) (s : State) :
    ∃ offset, i.operand = .rel offset ∧
      exec i s = .next (if s.flag f = v then s.jump (branchTarget s.pc offset) else s.advance) := by
  cases i <;> cases h
  case bcs offset | beq offset | bmi offset | bvs offset => exact ⟨offset, rfl, rfl⟩
  case bcc offset | bne offset | bpl offset | bvc offset =>
    exact ⟨offset, rfl, congrArg _ (if_congr (iff_of_eq (Bool.not_eq_true' _)) rfl rfl)⟩

/-! ### The target of JMP (indirect) (R113) -/

/-- The second byte is read at the next address, or at the next address of the pointer's page. -/
theorem indirectHighAddr_eq_ofNat (s : State) (ptr : Word) :
    s.indirectHighAddr ptr = BitVec.ofNat 16
      (if s.cfg.jmpIndPageWrap then ptr.toNat / 256 * 256 + (ptr.toNat + 1) % 256 else ptr.toNat + 1) := by
  apply BitVec.eq_of_toNat_eq
  rw [BitVec.toNat_ofNat, State.indirectHighAddr]
  split
  · have := ptr.isLt
    rw [toNat_wordOf, toNat_add_one, toNat_loByte, toNat_hiByte]
    omega
  · exact BitVec.toNat_add ptr 1

/-! ### The slots of a call and of a return (R70, R71, R230 to R232) -/

/-- The second of two pushes goes to another slot and leaves the first byte in place. -/
theorem readByte_push_push_first (s : State) (v w : Byte) : ((s.push v).push w).readByte (stackAddr s.sp) = v := by
  have hslot : stackAddr s.sp ≠ stackAddr (s.sp - 1) := fun h => by
    have := State.stackAddr_inj.mp h
    bv_omega
  rw [State.readByte_push, State.push_sp, if_neg hslot, readByte_push_same]

/-- The state that JSR leaves (R230): the address of its last byte pushed, high byte first, and PC on the target. -/
def State.afterJsr (s : State) (target : Word) : State :=
  ((s.push (hiByte (s.pc + 2))).push (loByte (s.pc + 2))).jump target

theorem exec_JSR_eq_afterJsr {i : Instr} (h : i.op = .JSR) (s : State) :
    ∃ target, i.operand = .mem (.abs target) ∧ exec i s = .next (s.afterJsr target) := exec_JSR h s

theorem afterJsr_sp (s : State) (target : Word) : (s.afterJsr target).sp = s.sp - 2 := by
  rw [State.afterJsr, State.jump_sp, State.push_sp, State.push_sp, BitVec.sub_sub]
  rfl

theorem readByte_afterJsr_high (s : State) (target : Word) :
    (s.afterJsr target).readByte (stackAddr s.sp) = hiByte (s.pc + 2) := readByte_push_push_first s _ _

theorem readByte_afterJsr_low (s : State) (target : Word) :
    (s.afterJsr target).readByte (stackAddr (s.sp - 1)) = loByte (s.pc + 2) := readByte_push_same (s.push _) _

/-- The second pull reads two above SP. -/
theorem pullByte_pulled (s : State) : s.pulled.pullByte = s.readByte (stackAddr (s.sp + 2)) := by
  rw [State.pullByte, State.pulled_sp, State.readByte_pulled, BitVec.add_assoc]
  rfl

/-- The third pull reads three above SP. -/
theorem pullByte_pulled_pulled (s : State) : s.pulled.pulled.pullByte = s.readByte (stackAddr (s.sp + 3)) := by
  rw [pullByte_pulled, State.pulled_sp, State.readByte_pulled, BitVec.add_assoc]
  rfl

theorem pulled_pulled_sp (s : State) : s.pulled.pulled.sp = s.sp + 2 := by
  rw [State.pulled_sp, State.pulled_sp, BitVec.add_assoc]
  rfl

theorem pulled_pulled_pulled_sp (s : State) : s.pulled.pulled.pulled.sp = s.sp + 3 := by
  rw [pulled_pulled_sp, State.pulled_sp, BitVec.add_assoc]
  rfl

/-- RTS through the slots it reads (R231). -/
theorem opRTS_eq (s : State) :
    opRTS s = .next (s.pulled.pulled.jump
      (wordOf (s.readByte (stackAddr (s.sp + 1))) (s.readByte (stackAddr (s.sp + 2))) + 1)) := by
  rw [← pullByte_pulled]
  rfl

/-- RTI through the slots it reads (R232). -/
theorem opRTI_eq (s : State) :
    opRTI s = .next ((s.pulled.pulled.pulled.setP (restoredStatus (s.readByte (stackAddr (s.sp + 1))) s.p)).jump
      (wordOf (s.readByte (stackAddr (s.sp + 2))) (s.readByte (stackAddr (s.sp + 3))))) := by
  rw [← pullByte_pulled, ← pullByte_pulled_pulled]
  rfl

end Sys2Proof.Machine

namespace Sys2Proof.Proofs

open Sys2Proof.Machine Sys2Proof.Claims

/-- Settles O46: the obligation's rows are those of `branchTest`, each with the one opcode of its mnemonic. -/
theorem branchesTestTheirFlag : Obligations.BranchesTestTheirFlag := by
  intro i s o code f v hrow h
  obtain ⟨hline, htest⟩ : encodingLine o = [(code, .rel)] ∧ branchTest o = some (f, v) := by
    simp only [List.mem_cons, List.not_mem_nil, or_false, Prod.mk.injEq] at hrow
    obtain ⟨rfl, rfl, rfl, rfl⟩ | ⟨rfl, rfl, rfl, rfl⟩ | ⟨rfl, rfl, rfl, rfl⟩ | ⟨rfl, rfl, rfl, rfl⟩ |
      ⟨rfl, rfl, rfl, rfl⟩ | ⟨rfl, rfl, rfl, rfl⟩ | ⟨rfl, rfl, rfl, rfl⟩ | ⟨rfl, rfl, rfl, rfl⟩ := hrow
    all_goals exact ⟨rfl, rfl⟩
  exact ⟨hline ▸ encodedAs_of_op h, exec_branch (h ▸ htest) s⟩

/-- Settles O47: the indirect target is a word of two bytes, the second at `indirectHighAddr`. -/
theorem jmpJumpsToItsTarget : Obligations.JmpJumpsToItsTarget := by
  intro i s h
  refine ⟨encodedAs_of_op h, fun w hw => ?absolute, fun ptr hptr => ?indirect⟩
  case absolute =>
    obtain ⟨w', hw', ht⟩ | ⟨ptr, hptr, -⟩ := exec_JMP h s
    · cases hw.symm.trans hw'
      exact ht
    · cases hw.symm.trans hptr
  case indirect =>
    obtain ⟨w, hw, -⟩ | ⟨ptr', hptr', ht⟩ := exec_JMP h s
    · cases hptr.symm.trans hw
    · cases hptr.symm.trans hptr'
      refine ⟨s.indirectTarget ptr, ht, ?_⟩
      rw [State.indirectTarget, toNat_wordOf, indirectHighAddr_eq_ofNat]

/-- Settles O48: two pushes in two slots, of the bytes of the address PC + 2. -/
theorem jsrPushesItsLastByteAddress : Obligations.JsrPushesItsLastByteAddress := by
  intro i s h
  obtain ⟨target, htarget, ht⟩ := exec_JSR_eq_afterJsr h s
  have hret : (s.pc + 2).toNat = (s.pc.toNat + 2) % 65536 := BitVec.toNat_add s.pc 2
  refine ⟨encodedAs_of_op h, target, s.afterJsr target, htarget, ht, rfl, afterJsr_sp s target, ?high, ?low,
    memoryKeptBut_push_push s _ _, rfl⟩
  case high =>
    calc
      _ = (hiByte (s.pc + 2)).toNat := congrArg BitVec.toNat (readByte_afterJsr_high s target)
      _ = (s.pc.toNat + 2) % 65536 / 256 := by rw [toNat_hiByte, hret]
  case low =>
    calc
      _ = (loByte (s.pc + 2)).toNat := congrArg BitVec.toNat (readByte_afterJsr_low s target)
      _ = (s.pc.toNat + 2) % 256 := by
        rw [toNat_loByte, hret]
        omega

/-- Settles O49: the pulled word is that of the two slots above SP. -/
theorem rtsReturnsPastThePulledAddress : Obligations.RtsReturnsPastThePulledAddress := by
  intro i s h
  refine ⟨encodedAs_of_op h, _, (exec_RTS h s).trans (opRTS_eq s), pulled_pulled_sp s, ?pc, fun _ => rfl, rfl⟩
  case pc =>
    rw [State.jump_pc, BitVec.toNat_add, toNat_wordOf]
    rfl

/-- Settles O50: the flags by `flagOf_restoredStatus`, the address from the two slots above the status. -/
theorem rtiRestoresStatusAndPC : Obligations.RtiRestoresStatusAndPC := by
  intro i s h
  exact ⟨encodedAs_of_op h, _, (exec_RTI h s).trans (opRTI_eq s), pulled_pulled_pulled_sp s, flagOf_restoredStatus _ s.p,
    toNat_wordOf _ _, fun _ => rfl, rfl⟩

/-- Settles O51: the two slots that RTS reads are those that JSR wrote, and hold the bytes of PC + 2. -/
theorem rtsUndoesJsr : Obligations.RtsUndoesJsr := by
  intro call ret s t u hcall hret ht hsp hhigh hlow
  obtain ⟨target, -, hjsr⟩ := exec_JSR_eq_afterJsr hcall s
  obtain rfl : t = s.afterJsr target := Host.Outcome.next.inj (ht.symm.trans hjsr)
  rw [afterJsr_sp] at hsp
  have hlowSlot : u.sp + 1 = s.sp - 1 := by bv_omega
  have hhighSlot : u.sp + 2 = s.sp := by bv_omega
  have hhigh : u.readByte (stackAddr s.sp) = hiByte (s.pc + 2) := hhigh.trans (readByte_afterJsr_high s target)
  have hlow : u.readByte (stackAddr (s.sp - 1)) = loByte (s.pc + 2) := hlow.trans (readByte_afterJsr_low s target)
  refine ⟨_, (exec_RTS hret u).trans (opRTS_eq u), ?pc, (pulled_pulled_sp u).trans hhighSlot⟩
  case pc =>
    rw [State.jump_pc, hlowSlot, hhighSlot, hlow, hhigh, wordOf_lo_hi, BitVec.add_assoc]
    rfl

end Sys2Proof.Proofs

/-! ## Stack instructions, BRK and NOP (43_stack_system.md)

PHA and PHP are one push, of A and of the status, and PLA and PLP one pull; what the push leaves is said once for both. A step of
BRK is the instruction's one field followed by the end of every executed step, as O6 states it. -/

namespace Sys2Proof.Machine

open Sys2Proof.Claims

/-- PHA and PHP leave the pushed byte in the cell SP designated and SP one lower, and nothing else (R250, R252). -/
theorem push_advance_frame (s : State) (v : Byte) :
    (s.push v).advance.readByte (stackAddr s.sp) = v ∧ MemoryKeptBut s (s.push v).advance [stackAddr s.sp] ∧
      (s.push v).advance =
        { s with mem := (s.push v).mem, entropy := (s.push v).entropy, sp := s.sp - 1, suppress := false } :=
  ⟨readByte_push_same s v, memoryKeptBut_push s v, rfl⟩

/-- The opcode 00 is BRK, whatever the two bytes after it (R120). -/
theorem fetchInstr_of_readByte_pc_zero {s : State} (h : s.readByte s.pc = 0x00) : s.fetchInstr = some .brk := by
  rw [State.fetchInstr, h]
  rfl

end Sys2Proof.Machine

namespace Sys2Proof.Proofs

open Sys2Proof.Machine Sys2Proof.Claims

/-- Settles O52: each is one push, and the flags of PHP's byte are those of `flagOf_pushedStatus`. -/
theorem pushInstructionsWriteOneByte : Obligations.PushInstructionsWriteOneByte := by
  refine fun i s => ⟨fun h => ?pha, fun h => ?php⟩
  case pha =>
    obtain ⟨hslot, hmem, hframe⟩ := push_advance_frame s s.a
    exact ⟨encodedAs_of_op h, _, exec_PHA h s, State.push_sp s s.a, hslot, hmem, hframe⟩
  case php =>
    obtain ⟨hslot, hmem, hframe⟩ := push_advance_frame s (pushedStatus s.p)
    refine ⟨encodedAs_of_op h, _, exec_PHP h s, State.push_sp s (pushedStatus s.p), fun f => ?_, hmem, hframe⟩
    exact (congrArg (flagOf · f) hslot).trans (flagOf_pushedStatus s.p f)

/-- Settles O53: PLA's frame is that of a write of A with its N and Z, and PLP's flags are those of `flagOf_restoredStatus`. -/
theorem pullInstructionsReadAboveSP : Obligations.PullInstructionsReadAboveSP := by
  refine fun i s => ⟨fun h => ?pla, fun h => ?plp⟩
  case pla =>
    obtain ⟨hnz, hflags, hmem, -⟩ := setA_setNZ_advance_frame s.pulled s.pullByte
    exact ⟨encodedAs_of_op h, _, exec_PLA h s, State.pulled_sp s, rfl, hnz, hflags, hmem, rfl⟩
  case plp =>
    exact ⟨encodedAs_of_op h, _, exec_PLP h s, State.pulled_sp s, flagOf_restoredStatus s.pullByte s.p, fun _ => rfl, rfl⟩

/-- Settles O54: the pull reads the pushed status, and `restoredStatus_pushedStatus` gives P back. -/
theorem plpUndoesPhp : Obligations.PlpUndoesPhp := by
  intro push pull s t hpush hpull ht
  obtain rfl : t = (s.push (pushedStatus s.p)).advance := Host.Outcome.next.inj (ht.symm.trans (exec_PHP hpush s))
  refine ⟨_, exec_PLP hpull _, ?status, BitVec.sub_add_cancel s.sp 1⟩
  case status =>
    calc
      _ = restoredStatus (s.push (pushedStatus s.p)).pullByte s.p := rfl
      _ = s.p := by rw [pullByte_push, restoredStatus_pushedStatus]

/-- Settles O55: NOP's operation is `Advance` alone. -/
theorem nopOnlyAdvances : Obligations.NopOnlyAdvances := fun _ s h => ⟨encodedAs_of_op h, exec_NOP h s⟩

/-- Settles O56: the step is `executedStepEffects` at the state in which BRK has set `halted`. -/
theorem brkHaltsAfterItsStep : Obligations.BrkHaltsAfterItsStep := by
  refine ⟨fun i s h => ⟨encodedAs_of_op h, exec_BRK h s⟩, fun s s' htick hc h0 => ?step⟩
  case step =>
    obtain ⟨u, hu, hpc, -, hcount, -, -, -, -, hmem, ha, hx, hy, hsp, hp, hhalted, hrun, -⟩ :=
      executedStepEffects s s' _ .brk htick hc (fetchInstr_of_readByte_pc_zero h0) (exec_BRK rfl _)
    obtain ⟨rest, rfl⟩ := eq_with_pending_of_tickOf htick
    exact ⟨u, hu, hhalted, hrun, hpc, hcount, ha, hx, hy, hsp, hp, hmem⟩

end Sys2Proof.Proofs

/-! ## Loads, stores, transfers and flag instructions (44_load_store_transfer_flag.md)

Loads, transfers and flag instructions write memory nowhere, and each ends in one write: of a register with its N and Z, or of
one flag. Stores end in the write of one cell. Flags and frame are said once for each kind of write. -/

namespace Sys2Proof.Machine

open Sys2Proof.Claims

/-- LDX, TAX and TSX leave the value in X and in N and Z, and nothing else (R271, R276, R280). -/
theorem setX_setNZ_advance_frame (s : State) (r : Byte) :
    NZOf ((s.setX r).setNZ r).advance r ∧ FlagsKept s ((s.setX r).setNZ r).advance [.N, .Z] ∧
      MemoryKept s ((s.setX r).setNZ r).advance ∧
      ((s.setX r).setNZ r).advance = { s with x := r, p := ((s.setX r).setNZ r).p, suppress := false } :=
  ⟨nzOf_setNZ _ r, flagsKept_setNZ (s.setX r) r, fun _ => rfl, rfl⟩

/-- LDY and TAY leave the value in Y and in N and Z, and nothing else (R272, R277). -/
theorem setY_setNZ_advance_frame (s : State) (r : Byte) :
    NZOf ((s.setY r).setNZ r).advance r ∧ FlagsKept s ((s.setY r).setNZ r).advance [.N, .Z] ∧
      MemoryKept s ((s.setY r).setNZ r).advance ∧
      ((s.setY r).setNZ r).advance = { s with y := r, p := ((s.setY r).setNZ r).p, suppress := false } :=
  ⟨nzOf_setNZ _ r, flagsKept_setNZ (s.setY r) r, fun _ => rfl, rfl⟩

/-- A store leaves the byte in the cell at the effective address, and changes nothing else (R273 to R275). -/
theorem writeTarget_mem_advance_frame (s : State) (m : MemOperand) (v : Byte) :
    (s.writeTarget (.mem m) v).advance.readByte (s.ea m) = v ∧
      MemoryKeptBut s (s.writeTarget (.mem m) v).advance [s.ea m] ∧
      (s.writeTarget (.mem m) v).advance =
        { s with
          mem := (s.writeTarget (.mem m) v).mem
          entropy := (s.writeTarget (.mem m) v).entropy
          suppress := false } :=
  ⟨State.readByte_writeByte_same s (s.ea m) v, memoryKeptBut_writeByte s (s.ea m) v, rfl⟩

/-- A flag instruction leaves the value in its flag, and changes nothing else (R282 to R288). -/
theorem setFlag_advance_frame (s : State) (f : Flag) (v : Bool) :
    (s.setFlag f v).advance.flag f = v ∧ FlagsKept s (s.setFlag f v).advance [f] ∧
      MemoryKept s (s.setFlag f v).advance ∧
      (s.setFlag f v).advance = { s with p := (s.setFlag f v).p, suppress := false } :=
  ⟨flagOf_withFlag_same s.p f v, fun _ hg => flagOf_withFlag_other s.p v (List.ne_of_not_mem_cons hg), fun _ => rfl, rfl⟩

/-- The flag that a flag instruction writes and the value it gives it; `exec_flagWrite` ties the table to `exec`. -/
def flagWrite : Op → Option (Flag × Bool)
  | .CLC => some (.C, false)
  | .SEC => some (.C, true)
  | .CLI => some (.I, false)
  | .SEI => some (.I, true)
  | .CLD => some (.D, false)
  | .SED => some (.D, true)
  | .CLV => some (.V, false)
  | _ => none

theorem exec_flagWrite {i : Instr} {f : Flag} {v : Bool} (h : flagWrite i.op = some (f, v)) (s : State) :
    exec i s = .next (s.setFlag f v).advance := by
  cases i <;> cases h
  case clc | sec | cli | sei | cld | sed | clv => rfl

end Sys2Proof.Machine

namespace Sys2Proof.Proofs

open Sys2Proof.Machine Sys2Proof.Claims

/-- Settles O29: each load is the write of its register, with N and Z, by the byte that its source reads. -/
theorem loadsSetTheRegisterAndNZ : Obligations.LoadsSetTheRegisterAndNZ := by
  intro i s
  refine ⟨fun h => ⟨encodedAs_of_op h, ?lda⟩, fun h => ⟨encodedAs_of_op h, ?ldx⟩,
    fun h => ⟨encodedAs_of_op h, ?ldy⟩⟩
  case lda =>
    obtain ⟨src, hsrc, ht⟩ := exec_LDA h s
    exact ⟨src, _, hsrc, ht, rfl, setA_setNZ_advance_frame s _⟩
  case ldx =>
    obtain ⟨src, hsrc, ht⟩ := exec_LDX h s
    exact ⟨src, _, hsrc, ht, rfl, setX_setNZ_advance_frame s _⟩
  case ldy =>
    obtain ⟨src, hsrc, ht⟩ := exec_LDY h s
    exact ⟨src, _, hsrc, ht, rfl, setY_setNZ_advance_frame s _⟩

/-- Settles O30: each store is the write of its register to the one cell. -/
theorem storesWriteTheEffectiveAddress : Obligations.StoresWriteTheEffectiveAddress := by
  intro i s
  refine ⟨fun h => ⟨encodedAs_of_op h, ?sta⟩, fun h => ⟨encodedAs_of_op h, ?stx⟩,
    fun h => ⟨encodedAs_of_op h, ?sty⟩⟩
  case sta =>
    obtain ⟨m, hm, ht⟩ := exec_STA h s
    exact ⟨m, _, hm, ht, writeTarget_mem_advance_frame s m s.a⟩
  case stx =>
    obtain ⟨m, hm, ht⟩ := exec_STX h s
    exact ⟨m, _, hm, ht, writeTarget_mem_advance_frame s m s.x⟩
  case sty =>
    obtain ⟨m, hm, ht⟩ := exec_STY h s
    exact ⟨m, _, hm, ht, writeTarget_mem_advance_frame s m s.y⟩

/-- Settles O31: a transfer is the write of its destination, with N and Z, by the source register. -/
theorem transfersCopyAndSetNZ : Obligations.TransfersCopyAndSetNZ := by
  intro i s
  refine ⟨fun h => ?tax, fun h => ?tay, fun h => ?txa, fun h => ?tya, fun h => ?tsx⟩
  case tax => exact ⟨encodedAs_of_op h, _, exec_TAX h s, rfl, setX_setNZ_advance_frame s s.a⟩
  case tay => exact ⟨encodedAs_of_op h, _, exec_TAY h s, rfl, setY_setNZ_advance_frame s s.a⟩
  case txa => exact ⟨encodedAs_of_op h, _, exec_TXA h s, rfl, setA_setNZ_advance_frame s s.x⟩
  case tya => exact ⟨encodedAs_of_op h, _, exec_TYA h s, rfl, setA_setNZ_advance_frame s s.y⟩
  case tsx => exact ⟨encodedAs_of_op h, _, exec_TSX h s, rfl, setX_setNZ_advance_frame s s.sp⟩

/-- Settles O33: the obligation's rows are those of `flagWrite`, each with the one opcode of its mnemonic. -/
theorem flagInstructionsWriteOneFlag : Obligations.FlagInstructionsWriteOneFlag := by
  intro i s o code f v hrow h
  obtain ⟨hline, hwrite⟩ : encodingLine o = [(code, .imp)] ∧ flagWrite o = some (f, v) := by
    simp only [List.mem_cons, List.not_mem_nil, or_false, Prod.mk.injEq] at hrow
    obtain ⟨rfl, rfl, rfl, rfl⟩ | ⟨rfl, rfl, rfl, rfl⟩ | ⟨rfl, rfl, rfl, rfl⟩ | ⟨rfl, rfl, rfl, rfl⟩ |
      ⟨rfl, rfl, rfl, rfl⟩ | ⟨rfl, rfl, rfl, rfl⟩ | ⟨rfl, rfl, rfl, rfl⟩ := hrow
    all_goals exact ⟨rfl, rfl⟩
  exact ⟨hline ▸ encodedAs_of_op h, _, exec_flagWrite (h ▸ hwrite) s, setFlag_advance_frame s f v⟩

/-- Settles O32: TXS is the write of SP and `Advance`, with no `SetNZ` (C4, D14). -/
theorem txsWritesNoFlag : Obligations.TxsWritesNoFlag := fun _ s h => ⟨encodedAs_of_op h, exec_TXS h s⟩

end Sys2Proof.Proofs

/-! ## Undefined opcodes, the run state and breakpoints (60_exceptions.md)

A move is a tick or a host action (`tick_or_hostEvent`). A tick that may not step changes nothing, a tick that may is a step of
R123, and a host action changes the run state at a quit and a reset alone. -/

namespace Sys2Proof.Machine

open Sys2Proof.Claims

/-! ### Runs (R310) -/

/-- A run of any length answers a next state, as each of its moves does. -/
theorem run_next (k : Nat) (s : State) : ∃ t, core.run k s = .next t := by
  induction k generalizing s with
  | zero => exact ⟨s, rfl⟩
  | succ k ih =>
    obtain ⟨u, hu⟩ := step_next s
    rw [run_of_step k hu]
    exact ih u

/-! ### The next move (R316, R322) -/

/-- The next move is a tick or the host action that is pending. -/
theorem tick_or_hostEvent (s : State) : (∃ s', TickOf s s') ∨ ∃ e rest, s.pending = e :: rest ∧ e ≠ .tick := by
  cases hp : s.pending with
  | nil => exact .inl ⟨s, .inl ⟨hp, rfl⟩⟩
  | cons e rest =>
    by_cases he : e = .tick
    · exact .inl ⟨_, .inr ⟨rest, he ▸ hp, rfl⟩⟩
    · exact .inr ⟨e, rest, rfl, he⟩

/-- A tick takes off what is pending. -/
theorem eq_with_tail_of_tickOf {s s' : State} (h : TickOf s s') : s' = { s with pending := s.pending.tail } := by
  obtain ⟨hp, rfl⟩ | ⟨rest, hp, rfl⟩ := h
  · rw [hp, List.tail_nil, ← hp]
  · rw [hp, List.tail_cons]

theorem step_eq_schedulerTick {s s' : State} (h : TickOf s s') : step s = schedulerTick s' := by
  obtain ⟨hp, rfl⟩ | ⟨rest, hp, rfl⟩ := h <;> simp only [step, hp]

/-- A tick of idle is the end of the start delay (R317, log 12). -/
theorem step_of_idle {s s' : State} (h : TickOf s s') (hrun : s.run = .idle) :
    step s = .next { s' with run := .running } := by
  obtain ⟨rest, rfl⟩ := eq_with_pending_of_tickOf h
  rw [step_eq_schedulerTick h, schedulerTick]
  simp only [hrun]

/-- Outside idle, a tick that may not step changes nothing (log 13). -/
theorem step_of_not_canStep {s s' : State} (h : TickOf s s') (hrun : s'.run ≠ .idle) (hc : s'.canStep = false) :
    step s = .next s' := by
  obtain ⟨t, ht⟩ := schedulerTick_next s'
  rw [step_eq_schedulerTick h, ht]
  obtain ⟨hidle, -⟩ | ⟨-, -, rfl⟩ | ⟨-, hc', -⟩ := schedulerTick_cases ht
  · exact absurd hidle hrun
  · rfl
  · simp [hc] at hc'

/-- Only a running machine takes a step (R316). -/
theorem canStep_eq_false_of_run {s : State} (hrun : s.run ≠ .running) : s.canStep = false := by
  simp [State.canStep, hrun]

/-- A tick at an undefined opcode applies the policy, the backup PC taken (R311). -/
theorem step_of_undefined {s s' : State} (h : TickOf s s') (hc : s'.canStep = true) (hf : s.fetchInstr = none) :
    step s = .next s'.snapshotPC.undefinedStep := by
  rw [step_of_tickOf h hc, runInstruction]
  obtain ⟨rest, rfl⟩ := eq_with_pending_of_tickOf h
  have hf' : State.fetchInstr { s with pending := rest } = none := hf
  simp only [hf']

/-- An ignored undefined opcode advances PC, is counted and writes the entropy cell, and keeps the rest (R313, D8). -/
theorem undefinedStep_frame_of_nop {s : State} (hp : s.cfg.undefPolicy = .nop) :
    s.undefinedStep.pc = s.pc + BitVec.ofNat 16 s.cfg.undefAdvance ∧ s.undefinedStep.count = s.count + 1 ∧
      s.undefinedStep.readByte s.cfg.entropyAddr = s.entropyByte ∧
      MemoryKeptBut s s.undefinedStep [s.cfg.entropyAddr] ∧ s.undefinedStep.a = s.a ∧ s.undefinedStep.x = s.x ∧
      s.undefinedStep.y = s.y ∧ s.undefinedStep.sp = s.sp ∧ s.undefinedStep.p = s.p ∧
      s.undefinedStep.halted = s.halted ∧ s.undefinedStep.run = s.run := by
  have hread : ∀ addr, s.undefinedStep.readByte addr =
      if addr = s.cfg.entropyAddr then s.entropyByte else s.readByte addr := fun addr => by
    rw [State.undefinedStep_nop hp, State.readByte_checkBreakpoint, State.readByte_writeEntropy]
    rfl
  refine ⟨?_, ?_, (hread _).trans (if_pos rfl), fun addr haddr => ?memory, ?_⟩
  case memory => exact (hread addr).trans (if_neg (List.ne_of_not_mem_cons haddr))
  all_goals simp [State.undefinedStep_nop hp]

/-! ### Host actions (R316, R354) -/

/-- A pending host action is the next move. -/
theorem step_eq_hostAct {s : State} {e : HostEvent} {rest : List HostEvent} (hp : s.pending = e :: rest)
    (he : e ≠ .tick) : step s = .next ({ s with pending := rest }.hostAct e) := by
  cases e
  case tick => exact absurd rfl he
  all_goals simp only [step, hp]

/-- No host action has an effect in stopped (log 15). -/
theorem hostAct_of_stopped {s : State} (h : s.run = .stopped) (e : HostEvent) : s.hostAct e = s := by
  rw [State.hostAct, h]

/-- Only a quit and a reset change the run state. -/
theorem actOn_run (s : State) (e : HostEvent) :
    (s.actOn e).run = if e = .quit then .stopped else if e = .reset then .idle else s.run := by
  cases e <;> simp [State.actOn, State.hostReset]

/-- What no host action but a reset changes. -/
theorem actOn_frame (s : State) {e : HostEvent} (he : e ≠ .reset) :
    (s.actOn e).a = s.a ∧ (s.actOn e).x = s.x ∧ (s.actOn e).y = s.y ∧ (s.actOn e).sp = s.sp ∧ (s.actOn e).pc = s.pc ∧
      (s.actOn e).p = s.p ∧ (s.actOn e).count = s.count ∧ (s.actOn e).draws = s.draws := by
  cases e
  case reset => exact absurd rfl he
  all_goals exact ⟨rfl, rfl, rfl, rfl, rfl, rfl, rfl, rfl⟩

/-- A host action writes no cell but the keyboard cell (R74). -/
theorem memoryKeptBut_actOn (s : State) (e : HostEvent) : MemoryKeptBut s (s.actOn e) [s.cfg.keyAddr] := by
  cases e
  case key code => exact memoryKeptBut_writeByte s s.cfg.keyAddr code
  all_goals exact fun _ _ => rfl

/-! ### The run state after a step (R39, R316) -/

/-- A step of a running machine that is not halted ends halted exactly with the signal up. -/
theorem runInstruction_run {s t : State} (hrun : s.run = .running) (hhalted : s.halted = false)
    (h : runInstruction s = .next t) : t.run = if t.halted then .halted else .running := by
  obtain ⟨-, rfl⟩ | ⟨i, u, -, hu, rfl⟩ := runInstruction_cases h
  · cases hp : s.snapshotPC.cfg.undefPolicy with
    | halt => simp [State.undefinedStep_halt hp]
    | nop => simp [State.undefinedStep_nop hp, hrun, hhalted]
  · obtain ⟨hurun, -⟩ := exec_frame hu
    rw [State.completeStep_run, completeStep_halted, hurun, State.snapshotPC_run, hrun]

/-- From a state that meets the invariant, an enabled step ends halted at a halting opcode and running at any other. -/
theorem runInstruction_run_of_inv {s t : State} (hs : Inv s) (hc : s.canStep = true) (h : runInstruction s = .next t) :
    (HaltingOpcode s → t.run = .halted) ∧ (¬ HaltingOpcode s → t.run = .running) := by
  obtain ⟨hrun, -⟩ := (canStep_iff s).mp hc
  have hhalted := hs.halted_eq_false hrun
  have hiff : t.halted = true ↔ HaltingOpcode s := by simpa [hhalted] using runInstruction_halted h
  rw [runInstruction_run hrun hhalted h, ← hiff]
  exact ⟨fun ht => if_pos ht, fun ht => if_neg ht⟩

/-! ### Changes of the run state (R316) -/

/-- A change of the run state in a tick is the start delay's end or a step at a halting opcode. -/
theorem run_changed_of_tick {s s' t : State} (hs : Inv s) (htick : TickOf s s') (h : step s = .next t)
    (hne : t.run ≠ s.run) :
    (s.run = .idle ∧ t.run = .running) ∨
      (s.run = .running ∧ t.run = .halted ∧ HaltingOpcode s ∧ s'.canStep = true) := by
  rw [step_eq_schedulerTick htick] at h
  obtain ⟨rest, rfl⟩ := eq_with_pending_of_tickOf htick
  obtain ⟨hidle, rfl⟩ | ⟨-, -, rfl⟩ | ⟨hrun, hc, hr⟩ := schedulerTick_cases h
  · exact .inl ⟨hidle, rfl⟩
  · exact absurd rfl hne
  · obtain ⟨hhalts, hruns⟩ := runInstruction_run_of_inv (hs.withPending rest) hc hr
    by_cases hop : HaltingOpcode s
    · exact .inr ⟨hrun, hhalts hop, hop, hc⟩
    · exact absurd ((hruns hop).trans hrun.symm) hne

/-- A change of the run state in a host action is a quit's or a reset's. -/
theorem run_changed_of_hostEvent {s t : State} {e : HostEvent} {rest : List HostEvent} (hp : s.pending = e :: rest)
    (he : e ≠ .tick) (h : step s = .next t) (hne : t.run ≠ s.run) :
    s.run ≠ .stopped ∧ ((t.run = .stopped ∧ e = .quit) ∨ (t.run = .idle ∧ e = .reset)) := by
  have hrun : s.run ≠ .stopped := by
    intro hrun
    rw [step_eq_hostAct hp he, hostAct_of_stopped (s := { s with pending := rest }) hrun] at h
    cases h
    exact hne rfl
  rw [step_of_hostEvent hrun hp he] at h
  cases h
  rw [actOn_run] at hne ⊢
  refine ⟨hrun, ?_⟩
  by_cases hquit : e = .quit
  · exact .inl ⟨if_pos hquit, hquit⟩
  · by_cases hreset : e = .reset
    · exact .inr ⟨by simp [hreset], hreset⟩
    · simp [hquit, hreset] at hne

/-! ### Breakpoints (R329 to R331) -/

/-- A completed step is paused by its breakpoint, or as the instruction left it. -/
theorem completeStep_paused (s : State) (len : Nat) :
    (s.completeStep len).paused = ((s.completeStep len).breakpointHit || s.paused) := by
  simp [State.completeStep, State.breakpointHit]

end Sys2Proof.Machine

namespace Sys2Proof.Proofs

open Sys2Proof.Machine Sys2Proof.Claims

/-- Settles O8: every move answers a next state, so every run does. -/
theorem everyRunIsSafe : Obligations.EveryRunIsSafe := fun s k => run_next k s

/-- Settles O7: the step is `undefinedStep` of the policy, from the state with the backup PC taken. -/
theorem undefinedOpcodesFollowThePolicy : Obligations.UndefinedOpcodesFollowThePolicy := by
  intro s s' htick hc hf
  have hstep := step_of_undefined htick hc hf
  have hhalt := State.undefinedStep_halt (s := s'.snapshotPC)
  have hnop := undefinedStep_frame_of_nop (s := s'.snapshotPC)
  obtain ⟨hrun, -⟩ := (canStep_iff s').mp hc
  obtain ⟨rest, rfl⟩ := eq_with_pending_of_tickOf htick
  refine ⟨fun hp => ?halt, fun hp => ⟨_, hstep, ?nop⟩⟩
  case halt => exact hstep.trans (congrArg _ (hhalt hp))
  case nop =>
    obtain ⟨hpc, hcount, hentropy, hmem, ha, hx, hy, hsp, hflags, hhalted, hrun'⟩ := hnop hp
    exact ⟨hpc, hcount, hentropy, hmem, ha, hx, hy, hsp, hflags, hhalted, hrun'.trans hrun⟩

/-- Settles O15: neither a tick nor a host action changes a stopped machine. -/
theorem stoppedIsTerminal : Obligations.StoppedIsTerminal := by
  intro s hrun
  obtain ⟨s', htick⟩ | ⟨e, rest, hp, he⟩ := tick_or_hostEvent s
  · have hs' := eq_with_tail_of_tickOf htick
    have hrun' : s'.run = .stopped := hs' ▸ hrun
    rw [← hs']
    exact step_of_not_canStep htick (by simp [hrun']) (canStep_eq_false_of_run (by simp [hrun']))
  · rw [step_eq_hostAct hp he, hp, List.tail_cons]
    exact congrArg _ (hostAct_of_stopped (s := { s with pending := rest }) hrun e)

/-- Settles O14: a tick of a halted machine changes nothing, and a host action but a reset has the frame of `actOn_frame`. -/
theorem haltedIsSticky : Obligations.HaltedIsSticky := by
  intro s t hrun h hreset
  obtain ⟨s', htick⟩ | ⟨e, rest, hp, he⟩ := tick_or_hostEvent s
  · have hquit : ¬ NextIs s .quit := fun ⟨_, hp⟩ => not_tickOf_of_host hp nofun htick
    obtain ⟨rest, rfl⟩ := eq_with_pending_of_tickOf htick
    rw [step_of_not_canStep htick (by simp [hrun]) (canStep_eq_false_of_run (by simp [hrun]))] at h
    cases h
    exact ⟨rfl, rfl, rfl, rfl, rfl, rfl, rfl, rfl, rfl, fun _ _ => rfl, .inl ⟨hrun, hquit⟩⟩
  · have hne : e ≠ .reset := fun heq => hreset ⟨rest, heq ▸ hp⟩
    rw [step_of_hostEvent (by simp [hrun]) hp he] at h
    cases h
    obtain ⟨ha, hx, hy, hsp, hpc, hpflags, hcount, hdraws⟩ := actOn_frame { s with pending := rest } hne
    refine ⟨ha, hx, hy, hsp, hpc, hpflags, actOn_halted _ hne, hcount, hdraws,
      memoryKeptBut_actOn { s with pending := rest } e, ?run⟩
    case run =>
      rw [actOn_run, if_neg hne]
      by_cases hquit : e = .quit
      · exact .inr ⟨if_pos hquit, rest, hquit ▸ hp⟩
      · refine .inl ⟨(if_neg hquit).trans hrun, fun ⟨_, hq⟩ => hquit ?_⟩
        rw [hp, List.cons.injEq] at hq
        exact hq.1

/-- Settles O16: the changes are those of `run_changed_of_tick` and `run_changed_of_hostEvent`, and each row is its move. -/
theorem runStateChangesAreTheTables : Obligations.RunStateChangesAreTheTables := by
  refine ⟨fun s t hs h hne => ?changes, fun s s' => step_of_idle, fun s s' hs htick hc => ?enabled,
    fun s rest hrun hp => step_of_hostEvent hrun hp nofun,
    fun s rest hrun hp => ⟨_, step_of_hostEvent (by simp [hrun]) hp nofun, actOn_run _ .reset⟩⟩
  case changes =>
    obtain ⟨s', htick⟩ | ⟨e, rest, hp, he⟩ := tick_or_hostEvent s
    · obtain ⟨hidle, ht⟩ | ⟨hrun, ht, hop, hc⟩ := run_changed_of_tick hs htick h hne
      · exact .inl ⟨hidle, ht, s', htick⟩
      · exact .inr (.inl ⟨hrun, ht, hop, s', htick, hc⟩)
    · obtain ⟨hrun, ⟨ht, rfl⟩ | ⟨ht, rfl⟩⟩ := run_changed_of_hostEvent hp he h hne
      · exact .inr (.inr (.inl ⟨hrun, ht, rest, hp⟩))
      · exact .inr (.inr (.inr ⟨hrun, ht, rest, hp⟩))
  case enabled =>
    obtain ⟨t, ht⟩ := runInstruction_next s'
    refine ⟨t, (step_of_tickOf htick hc).trans ht, ?_⟩
    obtain ⟨rest, rfl⟩ := eq_with_pending_of_tickOf htick
    have hends := runInstruction_run_of_inv (hs.withPending rest) hc ht
    exact hends

/-- Settles O58: an enabled step starts unpaused, so the pause it ends in is its breakpoint's, evaluated on the backup PC, the
count and the PC of the completed step. -/
theorem breakpointsPauseAfterTheStep : Obligations.BreakpointsPauseAfterTheStep := by
  refine ⟨fun s s' htick hrun hpaused => ?withheld, fun s s' i htick hc hf => ?hit⟩
  case withheld =>
    obtain ⟨rest, rfl⟩ := eq_with_pending_of_tickOf htick
    exact step_of_not_canStep htick (by simp [hrun]) (by simp [State.canStep, hpaused])
  case hit =>
    obtain ⟨t, ht⟩ := exec_next i { s' with backupPC := s.pc }
    refine ⟨t.completeStep i.length, step_of_fetchInstr htick hc hf ht, ?_⟩
    obtain ⟨-, hpaused, -⟩ := (canStep_iff s').mp hc
    obtain ⟨rest, rfl⟩ := eq_with_pending_of_tickOf htick
    obtain ⟨-, hcount, -, hbackup, htpaused, hcfg, -⟩ := exec_frame ht
    obtain ⟨-, -, -, -, -, -, -, hbackup', hcfg', -⟩ := State.completeStep_frame t i.length
    rw [completeStep_paused, htpaused, hpaused, Bool.or_false, State.breakpointHit, hcfg', hcfg, hbackup', hbackup,
      State.completeStep_count, hcount]
    cases s.cfg.breakMode <;> simp

end Sys2Proof.Proofs

/-! ## Creation, reset and the throttle cap (70_reset_and_hazards.md)

Program load is a run of byte writes, so it keeps what each byte write keeps, and what it leaves in a cell is the image's byte from
the first address on (R351, D27). A reset is one host action. Under a cap, the interval count alone enables a step (R362). -/

namespace Sys2Proof.Machine

open Sys2Proof.Claims

/-! ### Program load (R351, D27) -/

/-- Loading keeps what every byte write keeps. -/
theorem loadAt_keeps {P : State → Prop} (hwrite : ∀ s addr v, P s → P (s.writeByte addr v)) (image : List Byte) :
    ∀ (s : State) (addr : Nat), P s → P (s.loadAt addr image) := by
  induction image with
  | nil => exact fun _ _ hs => hs
  | cons v rest ih =>
    intro s addr hs
    rw [State.loadAt]
    split
    · exact ih _ (addr + 1) (hwrite s _ v hs)
    · exact hs

/-- From the first address on a cell holds the image's byte, or past the image's end what it held before; below the first address
nothing is written, as a load does not wrap. -/
theorem readByte_loadAt (image : List Byte) (s : State) (addr : Nat) (b : Word) :
    (s.loadAt addr image).readByte b =
      if addr ≤ b.toNat then image.getD (b.toNat - addr) (s.readByte b) else s.readByte b := by
  induction image generalizing s addr with
  | nil => simp [State.loadAt]
  | cons v rest ih =>
    rw [State.loadAt]
    by_cases hin : addr < 65536
    · have hfirst : b = BitVec.ofNat 16 addr ↔ b.toNat = addr := by bv_omega
      rw [if_pos hin, ih, State.readByte_writeByte]
      obtain hlt | heq | hgt := Nat.lt_trichotomy b.toNat addr
      · simp [hfirst, hlt.ne, show ¬ addr + 1 ≤ b.toNat by omega, show ¬ addr ≤ b.toNat by omega]
      · simp [hfirst, heq]
      · have hindex : b.toNat - addr = b.toNat - (addr + 1) + 1 := by omega
        simp [hfirst, hgt.ne', hgt.le, hindex, show addr + 1 ≤ b.toNat from hgt]
    · have hbelow : ¬ addr ≤ b.toNat := by omega
      rw [if_neg hin, if_neg hbelow]

/-! ### The throttle cap (R362) -/

/-- Running and not paused, under a cap, a step is enabled exactly below the cap. -/
theorem canStep_iff_of_cap {s : State} {limit : Nat} (hrun : s.run = .running) (hpaused : s.paused = false)
    (hcap : s.cfg.throttle = .cap limit) : s.canStep = true ↔ s.intervalCount < limit := by
  simp [canStep_iff, hrun, hpaused, State.belowCap, hcap]

/-- An ignored undefined opcode counts in the interval (R313). -/
theorem undefinedStep_intervalCount_of_nop {s : State} (hp : s.cfg.undefPolicy = .nop) :
    s.undefinedStep.intervalCount = s.intervalCount + 1 := by
  simp [State.undefinedStep_nop hp]

end Sys2Proof.Machine

namespace Sys2Proof

open Sys2Proof.Machine

/-! ### Created machines (R350) -/

namespace Inv

/-- A new machine of a well-formed configuration meets the invariant (R44, R350). -/
theorem initial {cfg : Config} (hcfg : cfg.wellFormed = true) : Inv (State.initial cfg) where
  memoryCanonical := Memory.wf_nil
  entropyOneHome := rfl
  configWellFormed := hcfg
  signalClear := rfl
  haltedExactly := by simp [State.initial]
  idleUncounted _ := rfl
  breakKept := rfl
  unusedKept := rfl
  intervalWithinCount := Nat.le_refl 0
  capRespected _ _ := Nat.zero_le _

/-- Program load keeps the invariant (R351). -/
theorem loadAt {s : State} (h : Inv s) (addr : Nat) (image : List Byte) : Inv (s.loadAt addr image) :=
  loadAt_keeps (fun _ addr v hs => hs.writeByte addr v) image s addr h

end Inv

end Sys2Proof

namespace Sys2Proof.Proofs

open Sys2Proof.Machine Sys2Proof.Claims

/-- Settles O57: the interval count decides by `canStep_iff_of_cap`; an enabled step is that of the fetched instruction, or that of
the policy at an empty slot. -/
theorem throttleCapWithholdsSteps : Obligations.ThrottleCapWithholdsSteps := by
  refine ⟨fun s s' limit htick hrun hpaused hcap => ?tick, fun s rest hrun hp => step_of_hostEvent hrun hp nofun⟩
  case tick =>
    have hiff : s'.canStep = true ↔ s.intervalCount < limit := by
      obtain ⟨rest, rfl⟩ := eq_with_pending_of_tickOf htick
      exact canStep_iff_of_cap hrun hpaused hcap
    refine ⟨fun hle => ?atCap, fun hlt => ?belowCap⟩
    case atCap =>
      have hc : s'.canStep = false := Bool.eq_false_iff.mpr fun hc => hle.not_gt (hiff.mp hc)
      obtain ⟨rest, rfl⟩ := eq_with_pending_of_tickOf htick
      exact step_of_not_canStep htick (by simp [hrun]) hc
    case belowCap =>
      have hc := hiff.mpr hlt
      refine ⟨hc, ?_⟩
      cases hf : s.fetchInstr with
      | some i =>
        obtain ⟨t, ht⟩ := exec_next i { s' with backupPC := s.pc }
        refine ⟨t.completeStep i.length, step_of_fetchInstr htick hc hf ht, ?_, t, ht, rfl⟩
        obtain ⟨-, -, hinterval, -⟩ := exec_frame ht
        obtain ⟨rest, rfl⟩ := eq_with_pending_of_tickOf htick
        rw [State.completeStep_intervalCount, hinterval]
      | none =>
        refine ⟨_, step_of_undefined htick hc hf, ?_⟩
        obtain ⟨rest, rfl⟩ := eq_with_pending_of_tickOf htick
        cases hp : s.cfg.undefPolicy with
        | nop =>
          obtain ⟨hpc, -⟩ := undefinedStep_frame_of_nop (s := State.snapshotPC { s with pending := rest }) hp
          exact ⟨undefinedStep_intervalCount_of_nop hp, hpc⟩
        | halt => exact State.undefinedStep_halt hp

/-- Settles O60: the created machine is a load at `LOAD_ORIGIN` into a memory that reads 0x00 everywhere. -/
theorem programLoadCopiesTheImage : Obligations.ProgramLoadCopiesTheImage := by
  intro cfg image addr
  obtain ⟨hinitial, -⟩ := initialStateHoldsTheParameters
  obtain ⟨-, -, -, -, -, -, -, -, -, -, hzero⟩ := hinitial cfg
  have hload := readByte_loadAt image (State.initial cfg) cfg.loadOrigin.toNat addr
  rwa [hzero addr] at hload

/-- Settles O10: a new machine meets the invariant, and program load keeps it. -/
theorem resetMeetsInvariant : Obligations.ResetMeetsInvariant :=
  ⟨Inv.initial rfl, fun cfg image hcfg => (Inv.initial hcfg).loadAt cfg.loadOrigin.toNat image⟩

/-- Settles O17: a reset is the host action `hostReset`, which assigns each of these fields and writes no memory. -/
theorem hostResetRestoresRegistersOnly : Obligations.HostResetRestoresRegistersOnly := fun _ _ hrun hp =>
  ⟨_, step_of_hostEvent hrun hp nofun, rfl, rfl, rfl, rfl, rfl, rfl, rfl, rfl, rfl, rfl, rfl, rfl, fun _ => rfl, rfl⟩

end Sys2Proof.Proofs
